-- ==== Sys2Proof/Word.lean ====
section
/-! DEFINITION. The plainest types of the module: words, bytes, sparse maps (R9, R17). -/

namespace Sys2Proof

/-- A byte of memory or of a message. -/
abbrev Byte := BitVec 8

/-- A 32-bit register or thread register. -/
abbrev Word := BitVec 32

/-- A 64-bit register or descriptor word. -/
abbrev Dword := BitVec 64

/-- A run of bytes in address order; the first is the least significant (R9). -/
abbrev Bytes := List Byte

/-- A sparse table: key and value pairs, keys strictly rising; a table of bytes or words lists no
entry equal to its default. What an unlisted key reads as is given where the table is read. -/
abbrev Map (α : Type) := List (Nat × α)

end Sys2Proof
end

