-- ==== Sys2Proof/Syntax.lean ====
section
/-! DEFINITION. The commands the module takes, one constructor per row of the operation table, and
the types of their operands. A command names what happens (an instruction of a thread, an access to
a register, a message at a port, an event on a pin or a clocked unit); an operand carries what the
outside, a program or the physics of the part supplies. -/

namespace Sys2Proof

/-- The fields of an instruction word other than CLASS and OP (R186, R187). -/
structure Insn where
  /-- FMT: true for the immediate tail. -/
  fmt : Bool := false
  /-- PE: the instruction is guarded. -/
  pe : Bool := false
  /-- PN: the guard is negated. -/
  pn : Bool := false
  /-- PI: guard predicate. -/
  pi : BitVec 3 := 0
  /-- DST. -/
  dst : BitVec 8 := 0
  /-- SRC_A. -/
  a : BitVec 8 := 0
  /-- Bits 31:0, the register tail or IMM32. -/
  tail : BitVec 32 := 0
  deriving DecidableEq, Repr

/-- A message channel of a session handshake: a queue pair (R579) or a management connection (R583).
Queue pair number n belongs to service port n / 4096. -/
inductive Chan where
  | qp (n : Nat)
  | tcp (n : Nat)
  deriving DecidableEq, Repr

/-- Who makes an access to control and status space (R33): rind firmware, the program on a logical
core, a client through a queue pair. -/
inductive Agent where
  | rind
  | program (c : Nat)
  | client (qp : Nat)
  deriving DecidableEq, Repr

/-- What one window of R606 measured. -/
structure PowerSample where
  /-- Average input power of the window, in units of 1/128 W. -/
  pAvg : Nat
  /-- Coolant inlet temperature in units of 1/128 degree; none when the sensor is absent. -/
  inlet : Option Int
  /-- Hottest junction of vats 0 to 3, in units of 1/128 degree. -/
  tj : List Int
  /-- Hottest junction of the hub. -/
  hub : Int
  deriving DecidableEq, Repr

/-- Results of RIND_UP: which physical cores pass the quick press BIST (one mask per vat), whether
vat 0's stacks train, and where rind firmware places the fence table and the hoop state records. -/
structure BringUp where
  bist : List (BitVec 66)
  stackUp : BitVec 6
  fenceBase : Nat
  hoopTable : Nat
  hoopState : Nat
  deriving DecidableEq, Repr

/-- Results of stage 3: stacks and cave channels trained and physical cores that pass the full BIST. -/
structure Training where
  stackUp : BitVec 24
  channels : BitVec 16
  bist : List (BitVec 66)
  deriving DecidableEq, Repr

/-- The target and kind of a self-test request (R527). -/
inductive TestTarget where
  | pressBist (c : Nat)
  | wheyBist (c : Nat)
  | port (p : Nat)
  | meterCal
  deriving DecidableEq, Repr

/-- A self-test request. -/
structure SelfTest where
  target : TestTarget
  immediate : Bool
  deriving DecidableEq, Repr

/-- Protocol of a service port frame (R576). A router advertisement names its router and says whether it is a default router
now (R584). -/
inductive EthProto where
  | arp | ip4 | ip6 | icmp | icmp6nd
  | routerAdvert (router : Bytes) (isDefault : Bool)
  | roce (qp : Nat) (ce : Bool) (opcodeOk : Bool)
  | other
  deriving DecidableEq, Repr

/-- A frame that arrives at a service port: whether its FCS is good, its length, its destination MAC address (6 bytes), the
VLAN ID of its 802.1Q tag (0: untagged), its destination IP address (4 or 16 bytes; none of ARP) and its protocol. -/
structure EthFrame where
  fcsOk : Bool
  len : Nat := 64
  dst : Bytes
  vlan : BitVec 12 := 0
  ip : Bytes := []
  proto : EthProto
  deriving DecidableEq, Repr

/-- A priority flow control frame (R576): the priority that pauses, and for how many quanta of 512 bit times. -/
structure PfcFrame where
  prio : Nat
  quanta : BitVec 16
  deriving DecidableEq, Repr

/-- Transports of IBA (R577). -/
inductive Transport where
  | rc | uc | ud | xrc
  deriving DecidableEq, Repr

/-- A CM REQ (R577, R579): transport, path MTU in bytes, RDMA READ and atomic operations that the client would keep
outstanding, the client's IP address (4 or 16 bytes), and the private data. -/
structure CmRequest where
  transport : Transport
  mtu : Nat
  resources : Nat
  peer : Bytes
  priv : Bytes
  deriving DecidableEq, Repr

/-- Where rind firmware places a new session's admin rings (R466, R476). -/
structure AdminRing where
  ring : Nat
  cpl : Nat
  k : Nat
  deriving DecidableEq, Repr

/-- The kinds of object (R469). -/
inductive ObjKind where
  | context | queue | memory | fence | session
  deriving DecidableEq, Repr

/-- Physical upsets in the press while one streaming row of one pass is formed: outputs whose window
is off by an amount in window steps, and an amount by which the cross sum is off (R87, R88). -/
structure PressErr where
  outs : List (Nat × Int) := []
  cross : Int := 0
  deriving DecidableEq, Repr

/-- A domain whose clock may stop (R541). -/
inductive Domain where
  | press (c : Nat)
  | cave (ch : Nat)
  | port (p : Nat)
  deriving DecidableEq, Repr

/-- How an NVMe command ends (R587): with the data of a Read, an error status, a poisoned TLP, an ECRC error, or no
completion in time. -/
inductive NvmeResult where
  | ok (data : Bytes)
  | error
  | tlp
  | ecrc
  | timeout
  deriving DecidableEq, Repr

/-- The end of an NVMe command of a ladle's command (R587): its number, how it ends, and the data-link replays it took. -/
structure NvmeEnd where
  cmd : Nat
  result : NvmeResult
  replays : Nat := 0
  deriving DecidableEq, Repr

/-- Whose route cache is ready (R364): the rind's, or in client-assisted mode the client's. -/
inductive CacheSource where
  | rind | client
  deriving DecidableEq, Repr

/-- A namespace of a drive (R586): its NSID, LBA size, size in LBAs, and whether it has metadata. -/
structure NvmeNs where
  nsid : Nat
  lbaSize : Nat
  lbas : Nat
  metadata : Bool
  deriving DecidableEq, Repr

/-- Rates of a PCIe link: 2.5, 5, 8, 16, 32 and 64 GT/s (R585, R594). -/
inductive PcieRate where
  | gen1 | gen2 | gen3 | gen4 | gen5 | gen6
  deriving DecidableEq, Repr

/-- Widths of a PCIe link (R585, R594). -/
inductive PcieWidth where
  | x1 | x2 | x4
  deriving DecidableEq, Repr

/-- What the rind finds on a PCIe link (R585, R586): the device class, how the link has trained, MDTS in bytes (0: no limit)
and the namespaces of the drive in ascending NSID order. -/
structure NvmeDrive where
  isNvme : Bool
  speed : PcieRate
  width : PcieWidth
  ecrc : Bool
  mdts : Nat
  namespaces : List NvmeNs
  deriving DecidableEq, Repr

/-- What the patrol scrubber finds in a unit (R297). -/
inductive ScrubResult where
  | clean | corrected | uncorrectable
  deriving DecidableEq, Repr

/-- Upsets inside the hoop engine while a block is handled: how often the adder check fails, how
often the reseal units disagree, how often a local read fails its check (R400). -/
structure HoopErr where
  adder : Nat := 0
  reseal : Nat := 0
  localRead : Nat := 0
  deriving DecidableEq, Repr

/-- What FEC found on one codeword that a flit touches (R334): its lane, whether the flit is the first of those
that touch it, and its symbol errors. -/
structure CodeWord where
  lane : Nat
  first : Bool
  errs : Nat
  deriving DecidableEq, Repr

/-- A flit as a port receives it: 256 bytes, and the codewords with symbol errors that it touches (R334, R343). -/
structure RawFlit where
  bytes : Bytes
  words : List CodeWord := []
  deriving DecidableEq, Repr

/-- What TRAIN flits exchange in IDENTIFY (R367). -/
structure TrainId where
  node : Nat
  x : Nat
  y : Nat
  z : Nat
  port : Nat
  job : Nat
  epoch : Nat
  mode : Nat
  deriving DecidableEq, Repr

/-- What a completed training state found (R367 to R369): lanes 0 to 7 and 8 to 15 good, lane order and polarity, and
what the neighbour sent. -/
structure TrainInfo where
  lowOk : Bool
  highOk : Bool
  reversed : Bool
  polinv : BitVec 16
  nbr : TrainId
  deriving DecidableEq, Repr

/-- A command in the meter's service window (R572): signer's key, SERIAL, NONCE, arguments and signature. -/
structure MeterCmd where
  pub : Bytes
  serial : Dword
  nonce : Dword
  arg : Dword
  /-- The offset of SET_CAL, and the image of FW_UPDATE. -/
  off : Dword := 0
  img : Bytes := []
  sig : Bytes
  deriving DecidableEq, Repr

/-- The memory that an integrity event concerns (R559). -/
inductive MemTier where
  | hbm | cave | sram | l1 | fabric
  deriving DecidableEq, Repr

/-- The place of an error that no check corrects (R295, R296): a 64-bit unit of accumulator memory or operand cache; one
of the register file of a group, 128 * lane + register / 2; a line of an L1; the input path of a press; a transfer of
the hub fabric that carries an access of a core, a ladle's block, a block on its way to memory, what an RDMA read or atomic
of a queue pair returns, or what a READ_REQ or ATOMIC of a virtual channel returns; the data path of the hoop engine, where
the checks of the next hop find it (R400). -/
inductive ErrPlace where
  | acc (c u : Nat)
  | oc (c u : Nat)
  | reg (c g u : Nat)
  | l1 (c line : Nat)
  | press (c : Nat)
  | load (c n : Nat)
  | ladle (l : Nat)
  | mem (a : Nat)
  | hoop (e : HoopErr)
  | rdma (qp : Nat)
  | remote (p vc : Nat)
  deriving DecidableEq, Repr

/-- An integrity event that a block raises to fault triage (R549, R557). -/
structure FaultInfo where
  cls : Nat
  source : Nat
  tier : MemTier := .sram
  unit : Nat := 0
  /-- Where a fresh error lies that no address of memory names. -/
  place : Option ErrPlace := none
  /-- A consumer has met poison that stands in memory already. -/
  met : Bool := false
  /-- The context of the consumer, where it is one. -/
  consumer : Option Nat := none
  d0 : Dword := 0
  d1 : Dword := 0
  d2 : Dword := 0
  deriving DecidableEq, Repr


/-- The commands: one constructor per row of the operation table. Each docstring names the row's
mnemonic and owning rule. -/
inductive Instr where
  /-- POWER_APPLY (R24): 48 V input appears: the always-on domain powers up, the position contacts are latched and a cold start is requested. -/
  | powerApply (pos : BitVec 3)
  /-- POWER_LOSS (R24): The 48 V input falls below 30 V: the always-on domain, retention SRAM, REF_CNT and all memory contents are lost. -/
  | powerLoss
  /-- EN_HIGH (R604): EN rises with the input in range: rails 1 to 6 start in order and PGOOD is released within 50 ms. -/
  | enHigh
  /-- EN_LOW (R604): EN falls: sequencing stops, or in service rails 1 to 6 fall within 1 ms and HBM and cave contents are lost. -/
  | enLow
  /-- POWER_GOOD_HANDSHAKE (R604): PGOOD has been high for 10 ms with EN high: the handshake completes and cold-start stage 0 begins. -/
  | powerGoodHandshake
  /-- UNDERVOLTAGE (R604): The input stays below 38 V for 2 ms: PGOOD falls and the module acts as for EN low. -/
  | undervoltage
  /-- RAIL_OUT_OF_TOLERANCE (R604): A rail stays outside ±3 % for 50 µs: the module acts as for EN low and waits for EN to toggle. -/
  | railOutOfTolerance (rail : Nat)
  /-- REFERENCE_LOSS (R543): The reference is absent for 1,000 monitor periods: the module is held in reset and runs the cold sequence when the reference returns. -/
  | referenceLoss
  /-- PLL_LOSS_OF_LOCK (R544): A PLL loses lock: its CLK_STAT bit clears, CLK_LOST is set, the domains it feeds stop, and triage requests a warm start. -/
  | pllLossOfLock (bit : Nat)
  /-- PRESS_PLL_RELOCK (R542): Once every press of vat 0 is stopped, the press PLL relocks from 300 MHz to 600 MHz within 20,000 ticks. -/
  | pressPllRelock
  /-- RELOCK_END (R542): The press PLL relock ends and the gates waiting for a wake open. -/
  | relockEnd
  /-- POWER_WINDOW (R606): Each 100,000-tick window compares average power and junction temperature with the limits and updates k and each vat's k_v. -/
  | powerWindow (w : PowerSample)
  /-- FLOW_LOW (R609): Coolant flow stays below 3.0 L/min for 1 s: FLOW_LOW is set and the limit becomes 2,400 W. -/
  | flowLow
  /-- RENNET_STAGE (R517): Rennet runs on rind core 0, reads the flash directory and derives the identity from the SRAM PUF. -/
  | rennetStage (puf : Bytes)
  /-- FIRMWARE_VERIFY (R511): Rennet verifies the firmware manifest, signature and chunk digests, then releases the rind cores or enters recovery service. -/
  | firmwareVerify
  /-- RIND_UP (R517): The rind cores start, check and parse the owner certificate and configuration, open the management port, and bring up vat 0 and stacks 0 to 5. -/
  | rindUp (b : BringUp)
  /-- EARLY_SERVICE_ENTRY (R518): The module enters early service while the remaining stacks, cave channels and vats are trained and the full BIST runs. -/
  | earlyServiceEntry
  /-- FULL_SERVICE_ENTRY (R519): Once every memory is trained and every vat has 64 passing cores, the module enters full service, or stays in early service with a FAIL code. -/
  | fullServiceEntry (t : Training)
  /-- WARM_START_ENTRY (R521): A warm start is entered: contexts stop, hoop and turning abandon their work, memory enters self-refresh, retirements are listed, warm holds are announced, and domains reset. -/
  | warmStartEntry
  /-- WATCHDOG_EXPIRY (R520): The rind watchdog passes 100,000,000 ticks without a firmware heartbeat and requests a warm start. -/
  | watchdogExpiry
  /-- RECOVERY_IMAGE_WRITE (R512): In recovery service, a firmware image from any sender is verified, written to flash, and a cold start follows. -/
  | recoveryImageWrite (image : Bytes)
  /-- ATTEST_REQ (R525): An attestation request with a nonce is answered with a signed 8,048-byte ATTEST record. -/
  | attestReq (nonce : Bytes)
  /-- IMAGE_PUT (R583): A management IMAGE_PUT delivers a firmware, configuration or owner-certificate image, which is verified and written under R508. -/
  | imagePut (conn region : Nat) (image : Bytes)
  /-- START (R520): A management START requests a cold or a warm start. -/
  | start (conn : Nat) (kind : Dword)
  /-- SELFTEST (R527): A self-test request runs at once, is deferred to a phase boundary, substitutes a spare, or is refused with BUSY. -/
  | selftest (conn : Option Nat) (t : SelfTest)
  /-- SELFTEST_RUN (R527): A deferred or substituted self-test runs at the core's phase boundary and reports its result to the requester and the fault log. -/
  | selftestRun (c : Nat) (pass : Bool)
  /-- METER_READ (R570): Meter reading records are returned from the requested SEQ onward, or NOT_FOUND. -/
  | meterRead (conn seq : Nat)
  /-- LOG_READ (R583): Fault log records are returned from the requested SEQ onward. -/
  | logRead (conn seq : Nat)
  /-- SCAN_HOLD (R591): The module stops as warm-start entry steps 1 to 4, stops driving every interface except management, and accepts EXTEST. -/
  | scanHold (conn : Nat)
  /-- MGMT_CONNECT (R583): A TCP connection to port 7,450 is accepted, up to four at a time, and authenticates by the session handshake. -/
  | mgmtConnect
  /-- DEBUG_TOKEN_LOAD (R589): An Erora-signed debug unlock token is loaded, which enables the debug instructions and sets DEBUG_UNLOCK until the next cold start. -/
  | debugTokenLoad (conn : Nat) (pub sig : Bytes)
  /-- BYPASS (R588): The JTAG BYPASS instruction. -/
  | bypass
  /-- IDCODE (R588): The JTAG IDCODE instruction returns revision, part number and manufacturer code. -/
  | idcode
  /-- SAMPLE_PRELOAD (R588): The JTAG SAMPLE/PRELOAD instruction on the boundary register. -/
  | samplePreload (cells : Bytes)
  /-- EXTEST (R590): JTAG EXTEST drives the contacts in scan hold and acts as BYPASS otherwise. -/
  | extest (cells : Bytes)
  /-- SMBUS_READ_SENSOR (R593): A Read Word of sensor n returns its latest value, or 0x8000 when absent. -/
  | smbusReadSensor (n : Nat)
  /-- SMBUS_READ_STATUS (R593): A Read Byte of code 0x80 returns the alert bits and clears the limit-crossed bit. -/
  | smbusReadStatus (crossing : Bool)
  /-- SMBUS_ALERT_MASK (R593): A Read or Write Word of code 0x81 reads or sets which sensors may assert SMBALERT#. -/
  | smbusAlertMask (w : Option (BitVec 16)) (pecOk : Bool)
  /-- SMBUS_IDENTITY_READ (R593): A Block Read of code 0xF0 returns the serial number and the ordering code. -/
  | smbusIdentityRead
  /-- SMBUS_ALERT_RESPONSE (R593): The module answers the alert response address with its own address. -/
  | smbusAlertResponse
  /-- SENSOR_LIMIT_CROSS (R593): An enabled sensor crosses its limit and SMBALERT# is asserted. -/
  | sensorLimitCross (n : Nat) (value : BitVec 16)
  /-- ETH_FRAME_RECEIVE (R576): A service port frame is accepted, or dropped and counted for a bad FCS or an unsupported protocol; a CE-marked RoCEv2 packet also draws a CNP. -/
  | ethFrameReceive (p : Nat) (f : EthFrame)
  /-- PFC_PAUSE_RECEIVE (R576): A PFC pause on the lossless priority is received and PFC_RX is set. -/
  | pfcPauseReceive (p : Nat) (f : PfcFrame)
  /-- CM_REQ (R579): A CM REQ either connects a bootstrap queue pair or, with a valid ticket, joins a queue pair to an open session; otherwise it is answered with a CM REJ. -/
  | cmReq (qp : Nat) (r : CmRequest)
  /-- CM_DREQ (R577): A CM DREQ disconnects a queue pair and leaves its session open. -/
  | cmDreq (qp : Nat)
  /-- HELLO (R580): The client's HELLO, carrying its key and requested rights, is answered with a CHALLENGE nonce. -/
  | hello (ch : Chan) (pub : Bytes) (params : Dword)
  /-- PROOF (R580): The client's PROOF signature is verified, and RESULT opens a session or reports NOT_PERMITTED or NO_RESOURCE. -/
  | proof (ch : Chan) (sig : Bytes) (r : AdminRing)
  /-- CLOSE (R579): CLOSE ends the session as a lease expiry does. -/
  | close (qp : Nat)
  /-- HANDSHAKE_TIMEOUT (R579): A handshake incomplete 100,000,000 ticks after its REQ disconnects the queue pair. -/
  | handshakeTimeout (ch : Chan)
  /-- RDMA_WRITE (R328): An RDMA WRITE to a memory object or doorbell key is checked and performed in queue-pair order, then acknowledged. -/
  | rdmaWrite (qp : Nat) (key : Word) (addr : Nat) (data : Bytes)
  /-- RDMA_READ (R328): An RDMA READ is checked and returns data performed after the queue pair's earlier writes. -/
  | rdmaRead (qp : Nat) (key : Word) (addr len : Nat)
  /-- COMPARE_AND_SWAP (R577): A RoCEv2 Compare and Swap is performed atomically at target memory, or refused with an invalid request NAK when misaligned. -/
  | compareAndSwap (qp : Nat) (key : Word) (addr : Nat) (cmp swap : Dword)
  /-- FETCH_AND_ADD (R577): A RoCEv2 Fetch and Add is performed atomically at target memory. -/
  | fetchAndAdd (qp : Nat) (key : Word) (addr : Nat) (add : Dword)
  /-- RDMA_SEND (R577): A RoCEv2 SEND message is received on a session queue pair. -/
  | rdmaSend (qp : Nat) (msg : Bytes)
  /-- LEASE_EXPIRY (R467): A session's lease runs 200,000,000 ticks without renewal and the session ends under R498 and R499. -/
  | leaseExpiry (sess : Nat)
  /-- QDB_LEASE (R467): A write to QDB_LEASE renews the session lease. -/
  | qdbLease (who : Agent) (q : Nat)
  /-- DOORBELL (R478): A QDB_RING write asks the hub to admit commands ADM to PI - 1, or is dropped and counted. -/
  | doorbell (who : Agent) (q : Nat) (v : Dword)
  /-- COMMAND_START (R481): A head command starts once its predecessor has started, its wait is satisfied and its resources are granted. -/
  | commandStart (q : Nat)
  /-- COMMAND_RETIRE (R480): A command retires: it signals SIG_FENCE, writes its completion record, advances RI and releases references. -/
  | commandRetire (q seq : Nat)
  /-- LAUNCH (R483): A LAUNCH command distributes its blocks over the admission queues of the named cores, or is refused. -/
  | launch (q seq : Nat)
  /-- LADLE (R484): A LADLE command queues a ladle command and retires with the ladle's status. -/
  | ladle (q seq : Nat)
  /-- SIGNAL (R484): A SIGNAL command does nothing and retires at once. -/
  | signal (q seq : Nat)
  /-- CTX_CREATE (R482): CTX_CREATE allocates a context with its CORES and save area. -/
  | ctxCreate (q : Nat)
  /-- CTX_DESTROY (R501): CTX_DESTROY destroys the context's queues, ends its holds, and frees the context when the last queue is freed. -/
  | ctxDestroy (q : Nat)
  /-- QUEUE_CREATE (R617): QUEUE_CREATE allocates a queue with its rings and priority. -/
  | queueCreate (q : Nat)
  /-- QUEUE_DESTROY (R501): QUEUE_DESTROY sets the queue to DESTROYING, cancels its commands and retires OK. -/
  | queueDestroy (q : Nat)
  /-- MEM_ALLOC (R494): MEM_ALLOC places a memory object and returns its handle and base. -/
  | memAlloc (q : Nat) (base : Option Nat)
  /-- MEM_FREE (R496): MEM_FREE ends one hold, or with REVOKE every hold, on a memory object. -/
  | memFree (q : Nat)
  /-- SHARE (R482): SHARE makes a second context a holder of a memory object or fence. -/
  | share (q : Nat)
  /-- FENCE_CREATE (R482): FENCE_CREATE allocates a fence with an initial value. -/
  | fenceCreate (q : Nat)
  /-- FENCE_DESTROY (R496): FENCE_DESTROY ends a context's hold on a fence. -/
  | fenceDestroy (q : Nat)
  /-- QUERY (R497): QUERY writes 80 bytes of context record words into a memory object. -/
  | query (q : Nat)
  /-- ABORT (R500): ABORT stops or cancels a target command, or reports ALREADY_DONE or NOT_FOUND. -/
  | abort (q : Nat)
  /-- JOB_JOIN (R486): JOB_JOIN makes the module a member or idle spare of a job, loads the tables under a drain, and enables the hoop engine. -/
  | jobJoin (q : Nat)
  /-- SET_REG (R485): JOB_CONFIG SET_REG writes one of the permitted registers. -/
  | setReg (q : Nat)
  /-- BUCKET_OPEN (R382): JOB_CONFIG BUCKET_OPEN opens a bucket slot, raises its generation and resets its state record. -/
  | bucketOpen (q : Nat)
  /-- BUCKET_CLOSE (R382): JOB_CONFIG BUCKET_CLOSE requests the close of an open bucket slot. -/
  | bucketClose (q : Nat)
  /-- BUCKET_CLOSE_EFFECT (R382): Once the bucket has no step in progress, the close clears OPEN and records CLOSE_STEP. -/
  | bucketCloseEffect (b : Nat)
  /-- TURN_REGIONS (R426): JOB_CONFIG TURN_REGIONS sets the turning region table. -/
  | turnRegions (q : Nat)
  /-- DECISION_POST (R485): JOB_CONFIG DECISION_POST posts a client-assisted decision for one duty-split function. -/
  | decisionPost (q : Nat)
  /-- DECISION_DEADLINE_EXPIRY (R38): A client-assisted deadline passes, or the lease has expired: the rind decides in assisted mode and sets the fallback bit. -/
  | decisionDeadlineExpiry (f : Nat)
  /-- QUARANTINE_END (R470): A freed index that has no references leaves quarantine after OBJ_QUAR ticks and becomes allocatable. -/
  | quarantineEnd (k : ObjKind) (idx : Nat)
  /-- SLOT_EVICT (R493): An eligible context or queue slot is evicted and written back to its record. -/
  | slotEvict (queue : Bool) (idx : Nat)
  /-- SLOT_TAKE (R491): A queue or context with waiting work takes a free queue or context slot. -/
  | slotTake (queue : Bool) (idx : Nat)
  /-- PREEMPT (R491): A higher-priority LAUNCH stops a lower-priority context on a core and saves its state to the save area. -/
  | preempt (c : Nat)
  /-- CONTEXT_SWITCH (R491): A core changes context once it is idle, saving and loading the per-context registers and state. -/
  | contextSwitch (c ctx : Nat)
  /-- CTX_COUNTER_UPDATE (R497): Every 1,000,000 ticks the counters of running contexts are brought up to date in their records. -/
  | ctxCounterUpdate
  /-- BLOCK_ADMIT (R151): A core admits its head block once the slots, register units and scratchpad run are free. -/
  | blockAdmit (c : Nat)
  /-- GROUP_RESOURCE_FREE (R153): An ended group's slot and register units are freed once its pending loads complete. -/
  | groupResourceFree (c g : Nat)
  /-- BLOCK_RESOURCE_FREE (R153): An ended block's slot and scratchpad run are freed once its descriptors, chains, memory instructions and ladle commands are done. -/
  | blockResourceFree (c b : Nat)
  /-- LAUNCH_BLOCKS_END (R272): A launch's last block ends: under RERUN 0b01 the saturation tables are compared and cleared, and the launch is re-run or retires. -/
  | launchBlocksEnd (q seq : Nat)
  /-- NOP (R194): The NOP instruction. -/
  | nop (c g : Nat) (i : Insn)
  /-- BRA (R194): Relative branch, which may split the path under R189. -/
  | bra (c g : Nat) (i : Insn)
  /-- JMP (R195): Jump to a register address. -/
  | jmp (c g : Nat) (i : Insn)
  /-- CALL (R194): Writes the return address and branches relatively. -/
  | call (c g : Nat) (i : Insn)
  /-- RET (R194): Return to a register address. -/
  | ret (c g : Nat) (i : Insn)
  /-- EXIT (R194): The active threads end. -/
  | exit (c g : Nat) (i : Insn)
  /-- BAR (R163): Arrives at a block barrier, which completes when the count is reached. -/
  | bar (c g : Nat) (i : Insn)
  /-- SYNCG (R161): Waits until the path holds every named thread. -/
  | syncg (c g : Nat) (i : Insn)
  /-- MOV (R196): Integer move. -/
  | mov (c g : Nat) (i : Insn)
  /-- ADD (R196): 32-bit wrapping add. -/
  | add (c g : Nat) (i : Insn)
  /-- SUB (R196): 32-bit wrapping subtract. -/
  | sub (c g : Nat) (i : Insn)
  /-- MULLO (R196): Low 32 bits of a product. -/
  | mullo (c g : Nat) (i : Insn)
  /-- MULHI_S (R196): High 32 bits of a signed product. -/
  | mulhiS (c g : Nat) (i : Insn)
  /-- MULHI_U (R196): High 32 bits of an unsigned product. -/
  | mulhiU (c g : Nat) (i : Insn)
  /-- MAD (R196): Low 32 bits of a × b + c. -/
  | mad (c g : Nat) (i : Insn)
  /-- AND (R196): Bitwise AND. -/
  | and (c g : Nat) (i : Insn)
  /-- OR (R196): Bitwise OR. -/
  | or (c g : Nat) (i : Insn)
  /-- XOR (R196): Bitwise XOR. -/
  | xor (c g : Nat) (i : Insn)
  /-- SHL (R196): Shift left. -/
  | shl (c g : Nat) (i : Insn)
  /-- SHR (R196): Logical shift right. -/
  | shr (c g : Nat) (i : Insn)
  /-- SAR (R196): Arithmetic shift right. -/
  | sar (c g : Nat) (i : Insn)
  /-- MIN_S (R196): Signed minimum. -/
  | minS (c g : Nat) (i : Insn)
  /-- MIN_U (R196): Unsigned minimum. -/
  | minU (c g : Nat) (i : Insn)
  /-- MAX_S (R196): Signed maximum. -/
  | maxS (c g : Nat) (i : Insn)
  /-- MAX_U (R196): Unsigned maximum. -/
  | maxU (c g : Nat) (i : Insn)
  /-- POPC (R196): Population count. -/
  | popc (c g : Nat) (i : Insn)
  /-- CLZ (R196): Count of leading zeros. -/
  | clz (c g : Nat) (i : Insn)
  /-- SEL (R196): Selects between two values by a predicate. -/
  | sel (c g : Nat) (i : Insn)
  /-- LANE_RD (R196): Reads a register as held by another lane. -/
  | laneRd (c g : Nat) (i : Insn)
  /-- ADD64 (R196): 64-bit wrapping add. -/
  | add64 (c g : Nat) (i : Insn)
  /-- SUB64 (R196): 64-bit wrapping subtract. -/
  | sub64 (c g : Nat) (i : Insn)
  /-- FADD (R197): binary32 add of thread registers. -/
  | fadd (c g : Nat) (i : Insn)
  /-- FMUL (R197): binary32 multiply. -/
  | fmul (c g : Nat) (i : Insn)
  /-- FMA (R197): binary32 fused multiply-add. -/
  | fma (c g : Nat) (i : Insn)
  /-- FMIN (R197): binary32 minimum. -/
  | fmin (c g : Nat) (i : Insn)
  /-- FMAX (R197): binary32 maximum. -/
  | fmax (c g : Nat) (i : Insn)
  /-- FABS (R197): Clears the sign bit. -/
  | fabs (c g : Nat) (i : Insn)
  /-- FNEG (R197): Inverts the sign bit. -/
  | fneg (c g : Nat) (i : Insn)
  /-- TEST_EQ (R199): Integer equal test into a predicate. -/
  | testEq (c g : Nat) (i : Insn)
  /-- TEST_NE (R199): Integer not-equal test. -/
  | testNe (c g : Nat) (i : Insn)
  /-- TEST_LT_S (R199): Signed less-than test. -/
  | testLtS (c g : Nat) (i : Insn)
  /-- TEST_LE_S (R199): Signed less-or-equal test. -/
  | testLeS (c g : Nat) (i : Insn)
  /-- TEST_GT_S (R199): Signed greater-than test. -/
  | testGtS (c g : Nat) (i : Insn)
  /-- TEST_GE_S (R199): Signed greater-or-equal test. -/
  | testGeS (c g : Nat) (i : Insn)
  /-- TEST_LT_U (R199): Unsigned less-than test. -/
  | testLtU (c g : Nat) (i : Insn)
  /-- TEST_LE_U (R199): Unsigned less-or-equal test. -/
  | testLeU (c g : Nat) (i : Insn)
  /-- TEST_GT_U (R199): Unsigned greater-than test. -/
  | testGtU (c g : Nat) (i : Insn)
  /-- TEST_GE_U (R199): Unsigned greater-or-equal test. -/
  | testGeU (c g : Nat) (i : Insn)
  /-- FTEST_EQ (R199): binary32 equal test. -/
  | ftestEq (c g : Nat) (i : Insn)
  /-- FTEST_NE (R199): binary32 not-equal test. -/
  | ftestNe (c g : Nat) (i : Insn)
  /-- FTEST_LT (R199): binary32 less-than test. -/
  | ftestLt (c g : Nat) (i : Insn)
  /-- FTEST_LE (R199): binary32 less-or-equal test. -/
  | ftestLe (c g : Nat) (i : Insn)
  /-- FTEST_GT (R199): binary32 greater-than test. -/
  | ftestGt (c g : Nat) (i : Insn)
  /-- FTEST_GE (R199): binary32 greater-or-equal test. -/
  | ftestGe (c g : Nat) (i : Insn)
  /-- PLOG_AND (R199): Predicate AND. -/
  | plogAnd (c g : Nat) (i : Insn)
  /-- PLOG_OR (R199): Predicate OR. -/
  | plogOr (c g : Nat) (i : Insn)
  /-- PLOG_XOR (R199): Predicate XOR. -/
  | plogXor (c g : Nat) (i : Insn)
  /-- PACKP (R199): Packs the predicates into a register. -/
  | packp (c g : Nat) (i : Insn)
  /-- LOADP (R199): Loads the predicates from a register. -/
  | loadp (c g : Nat) (i : Insn)
  /-- GANY (R199): Group any-reduction of a predicate. -/
  | gany (c g : Nat) (i : Insn)
  /-- GALL (R199): Group all-reduction of a predicate. -/
  | gall (c g : Nat) (i : Insn)
  /-- GMASK (R199): Group mask of a predicate into a register. -/
  | gmask (c g : Nat) (i : Insn)
  /-- LOAD (R200): Thread load from a scratchpad offset or a global address, at a given width, order and cache policy. -/
  | load (c g : Nat) (sub : BitVec 4) (i : Insn)
  /-- STORE (R200): Thread store to a scratchpad offset or a global address. -/
  | store (c g : Nat) (sub : BitVec 4) (i : Insn)
  /-- ATOM_ADD (R166): Atomic wrapping add. -/
  | atomAdd (c g : Nat) (wide : Bool) (i : Insn)
  /-- ATOM_FADD (R169): Atomic binary32 add. -/
  | atomFadd (c g : Nat) (wide : Bool) (i : Insn)
  /-- ATOM_MIN_S (R166): Atomic signed minimum. -/
  | atomMinS (c g : Nat) (wide : Bool) (i : Insn)
  /-- ATOM_MIN_U (R166): Atomic unsigned minimum. -/
  | atomMinU (c g : Nat) (wide : Bool) (i : Insn)
  /-- ATOM_MAX_S (R166): Atomic signed maximum. -/
  | atomMaxS (c g : Nat) (wide : Bool) (i : Insn)
  /-- ATOM_MAX_U (R166): Atomic unsigned maximum. -/
  | atomMaxU (c g : Nat) (wide : Bool) (i : Insn)
  /-- ATOM_AND (R166): Atomic AND. -/
  | atomAnd (c g : Nat) (wide : Bool) (i : Insn)
  /-- ATOM_OR (R166): Atomic OR. -/
  | atomOr (c g : Nat) (wide : Bool) (i : Insn)
  /-- ATOM_XOR (R166): Atomic XOR. -/
  | atomXor (c g : Nat) (wide : Bool) (i : Insn)
  /-- ATOM_EXCH (R171): Atomic exchange, performed lane by lane. -/
  | atomExch (c g : Nat) (wide : Bool) (i : Insn)
  /-- ATOM_CAS (R171): Atomic compare-and-swap, performed lane by lane. -/
  | atomCas (c g : Nat) (wide : Bool) (i : Insn)
  /-- FENCE (R315): Acquire, release or both fence at a scope, whole or by range. -/
  | fence (c g : Nat) (i : Insn)
  /-- SRD (R209): Reads a special register. -/
  | srd (c g : Nat) (i : Insn)
  /-- MXISSUE (R102): Checks a press descriptor and queues it with a sequence number, or refuses or faults it. -/
  | mxissue (c g : Nat) (i : Insn)
  /-- MXWAIT (R132): Stalls the group until a press completion counter reaches a value. -/
  | mxwait (c g : Nat) (i : Insn)
  /-- WXISSUE (R227): Checks a whey chain and queues it, or refuses it. -/
  | wxissue (c g : Nat) (i : Insn)
  /-- WXWAIT (R232): Stalls the group until a whey completion counter reaches a value. -/
  | wxwait (c g : Nat) (i : Insn)
  /-- CVT (R233): Queues a single-stage conversion chain on the whey unit. -/
  | cvt (c g : Nat) (i : Insn)
  /-- TRACKED_ACCESS_RELEASE (R173): An access held behind a conflicting earlier access proceeds once every conflicting range is released. -/
  | trackedAccessRelease (c n : Nat)
  /-- LOAD_RETURN (R306): Load data returns from memory or L1, which releases its tracked range and, for an acquire, invalidates the L1. -/
  | loadReturn (c n : Nat)
  /-- WRITE_PERFORMED (R306): A store is applied at its target memory and its tracked range is released. -/
  | writePerformed (c n : Nat)
  /-- ATOMIC_PERFORMED (R168): An atomic is performed at the owning memory and returns its old value. -/
  | atomicPerformed (c n : Nat)
  /-- RELEASE_WAIT_END (R313): A held release store, atomic or fence proceeds once earlier accesses reach its scope's wait point. -/
  | releaseWaitEnd (c n : Nat)
  /-- REMOTE_RELEASE_PERFORM (R322): A release held at the target is performed once the same core's earlier writes in the class have been performed there. -/
  | remoteReleasePerform (k : Nat)
  /-- PRESS_LOAD_START (R122): The shadow tile starts loading the next piece tile needed, once it is free. -/
  | pressLoadStart (c : Nat)
  /-- PRESS_LOAD_END (R120): The last row pair of a stationary load arrives with its residues and row sums. -/
  | pressLoadEnd (c : Nat)
  /-- PRESS_SWAP (R121): The shadow tile becomes active once it is full and the previous pass's last row has entered. -/
  | pressSwap (c : Nat)
  /-- PRESS_ROW_ENTRY (R124): A streaming row of a pass enters the array. -/
  | pressRowEntry (c : Nat)
  /-- PRESS_OUTPUT_WRITE (R91): A row's outputs are checked against the residues 16 cycles after entry and written, or suppressed on a mismatch. -/
  | pressOutputWrite (c : Nat) (e : PressErr)
  /-- PRESS_RERUN (R92): After the other rows finish, the failed row is re-run once from the failed pass, with fresh loads. -/
  | pressRerun (c : Nat)
  /-- DESCRIPTOR_COMPLETE (R125): A descriptor completes: its completion counter increments, its ranges are released and saturation hits are added. -/
  | descriptorComplete (c : Nat)
  /-- BATCH_OPEN (R127): A COALESCE descriptor at the queue head opens a batch and starts its load. -/
  | batchOpen (c : Nat)
  /-- BATCH_WAIT_EXPIRY (R128): WAIT press cycles pass since the head reached the queue head, and the batch closes. -/
  | batchWaitExpiry (c : Nat)
  /-- PRESS_CLOCK_STOP (R541): A press idle for 64 cycles stops its clock gate and keeps its tile, tag and counters. -/
  | pressClockStop (c : Nat)
  /-- DOMAIN_WAKE (R540): A wake request opens a stopped domain's gate within 2 of its periods. -/
  | domainWake (d : Domain)
  /-- PRESS_CO_CTL_WRITE (R136): A write to PRESS_CO_CTL takes effect at the next batch head. -/
  | pressCoCtlWrite (c : Nat) (v : Word)
  /-- PRESS_CC_WRITE (R131): A program write to a press completion counter, combined with any same-cycle increment. -/
  | pressCcWrite (c n : Nat) (v : Word) (inc : Bool)
  /-- PRESS_SAT_FREE (R275): Clearing VALID in a PRESS_SATn entry frees the entry and zeroes HITS. -/
  | pressSatFree (c n : Nat)
  /-- CHAIN_GROUP_ENTRY (R231): A whey chain group enters the lanes, taking its culture draws. -/
  | chainGroupEntry (c : Nat)
  /-- CHAIN_GROUP_WRITE (R241): 20 cycles after entry a group's results are dual-compared when DUAL is set, then written and its RED partials updated. -/
  | chainGroupWrite (c : Nat) (differ : Bool)
  /-- WHEY_GROUP_RERUN (R242): A group whose dual runs mismatched runs once more, and a second mismatch completes the chain with WHEY_FAULT. -/
  | wheyGroupRerun (c : Nat) (differ : Bool)
  /-- CHAIN_COMPLETE (R232): A chain completes: its counter increments, its ranges are released and its NaN events are presented to the trap. -/
  | chainComplete (c : Nat)
  /-- WHEY_CC_WRITE (R232): A program write to a whey completion counter, combined with any same-cycle increment. -/
  | wheyCcWrite (c n : Nat) (v : Word) (inc : Bool)
  /-- CULTURE_WRITE (R239): A write to WHEY_CULT_SEED or WHEY_CULT_CTRl takes effect after every earlier-accepted chain completes. -/
  | cultureWrite (c : Nat) (lane : Option Nat) (v : Dword)
  /-- LADLE_SUBMIT (R302): A store to word 0x38 of a ladle slot submits the command to the core's ladle queue, acting as a module release. -/
  | ladleSubmit (c k : Nat) (v : Dword)
  /-- LADLE_COMMAND_START (R301): The hub assigns a queued command to a free ladle by priority and submission order. -/
  | ladleCommandStart (l : Nat)
  /-- LADLE_BLOCK (R300): A ladle reads and writes one 64-byte block, or fails under R30 or poison. -/
  | ladleBlock (l k : Nat)
  /-- LADLE_COMPLETE (R300): Once every write is performed, the ladle signals its fence with its status. -/
  | ladleComplete (l : Nat)
  /-- NVME_COMMAND_COMPLETE (R587): An NVMe Read or Write completes, or errs or times out, and gives the ladle's status. -/
  | nvmeCommandComplete (l : Nat) (r : NvmeEnd)
  /-- PCIE_LINK_DOWN (R585): A PCIe link goes down and stays down until the next start. -/
  | pcieLinkDown (l : Nat)
  /-- NVME_ENABLE (R586): The rind enables the NVMe controller of a link and creates its queues. -/
  | nvmeEnable (l : Nat) (d : NvmeDrive)
  /-- CAVE_PARK (R283): A cave channel idle for 4,096 hub cycles enters self-refresh and stops its clock. -/
  | cavePark (ch : Nat)
  /-- CAVE_WAKE (R283): A parked channel completes its wake within 1,200 hub cycles and serves the waiting request. -/
  | caveWake (ch : Nat)
  /-- PATROL_SCRUB (R297): The patrol scrubber reads, corrects and writes back words, and logs those it cannot correct. -/
  | patrolScrub (addr : Nat) (r : ScrubResult)
  /-- QW_REGENERATE (R256): After the optimizer of a step that is a multiple of INTERVAL, the quantised records are regenerated into their inactive banks. -/
  | qwRegenerate
  /-- REGEN_CHECK_DONE (R266): The rind's assisted codebook check completes and allows or refuses the switch. -/
  | regenCheckDone (r : Nat)
  /-- PHASE_SET (R423): A phase mark is accepted or ignored; an accepted mark may be a phase boundary, latch a culture snapshot, or be held. -/
  | phaseSet (c : Nat) (v : Dword)
  /-- SHARD_PTR (R438): A store to SHARD_PTR appends a SHARD entry to the replay log. -/
  | shardPtr (c : Nat) (v : Dword)
  /-- SEG_REPLAY (R459): Re-issues a recorded segment's items into the press and whey queues. -/
  | segReplay (c : Nat) (v : Dword)
  /-- TURNING_POINT (R427): All FORWARD marks of s + 1 are performed and step s's buckets are complete: the phase record is written and a due turning starts. -/
  | turningPoint
  /-- TURNING_GRANULE (R432): A turning ladle copies one 256 KiB granule into the slot, releasing writes held on it. -/
  | turningGranule (n : Nat)
  /-- MIRROR_COMPLETE (R435): All mirror WRITE_CPLs have returned, and the mirror VALID and MIRRORED are written. -/
  | mirrorComplete
  /-- CORE_REMAP (R453): A core with RETIRE_PEND or a self-test substitution is moved to a spare physical core at its phase boundary once its queues are empty. -/
  | coreRemap (c : Nat)
  /-- HEARTBEAT_TIMER (R442): Every HB ticks a member sends a HEARTBEAT to both coordinators. -/
  | heartbeatTimer
  /-- MEMBER_LOSS_EXPIRY (R442): A coordinator has had no heartbeat from a member for LOSS ticks and treats it as lost. -/
  | memberLossExpiry (node : Nat)
  /-- STANDBY_TAKEOVER (R448): A standby without heartbeats from the active coordinator for LOSS ticks issues a NEW_EPOCH decision naming itself. -/
  | standbyTakeover
  /-- MIRROR_ACK_TIMEOUT (R445): The standby has not acknowledged a MIRROR within LOSS: it is treated as lost and a new standby is named. -/
  | mirrorAckTimeout
  /-- MAILBOX_HEARTBEAT (R442): A HEARTBEAT is received and recorded. -/
  | mailboxHeartbeat (p vc : Nat)
  /-- MAILBOX_REPORT (R444): The active coordinator receives a REPORT and decides a replay, a new epoch or a halt. -/
  | mailboxReport (p vc : Nat)
  /-- MAILBOX_MIRROR (R445): The standby receives a mirrored decision and returns an ACK. -/
  | mailboxMirror (p vc : Nat)
  /-- MAILBOX_ACK (R445): The active coordinator receives the standby's ACK and sends the DECISION. -/
  | mailboxAck (p vc : Nat)
  /-- MAILBOX_DECISION (R449): A member accepts a decision: stops, abandons, drains, restores step r and sends READY, or halts. -/
  | mailboxDecision (p vc : Nat)
  /-- DECISION_GO (R449): A GO decision resumes the job and signals the replay fence with step r + 1. -/
  | decisionGo (p vc : Nat)
  /-- MAILBOX_READY (R447): The coordinator collects READY and sends GO once every member has sent one. -/
  | mailboxReady (p vc : Nat)
  /-- SPARE_MIRROR_COPY (R455): A lost node's twin copies its mirror slot to the spare, which then restores from it. -/
  | spareMirrorCopy
  /-- HOOP_SCALE_READY (R385): A HOOP_SIG SCALE_READY signal is counted toward a bucket step or dropped. -/
  | hoopScaleReady (c : Nat) (v : Dword)
  /-- HOOP_BUCKET_READY (R385): A HOOP_SIG BUCKET_READY signal is counted toward a bucket step or dropped, or marks a late contribution. -/
  | hoopBucketReady (c : Nat) (v : Dword)
  /-- BUCKET_STEP_OPEN (R385): Step s of a bucket opens once step CUR_STEP is complete and a signal or arrival for s is held. -/
  | bucketStepOpen (b : Nat)
  /-- BUCKET_MATCH_LOAD (R413): A missing bucket entry is loaded into the match unit, or by the rind in assisted mode. -/
  | bucketMatchLoad (b : Nat)
  /-- REDUCE_SCALE_RS (R391): A scale-round reduce chunk arrives, is checked, maxed with the local exponents and forwarded. -/
  | reduceScaleRs (p vc : Nat)
  /-- REDUCE_SCALE_AG (R391): A scale-round gather chunk arrives, X is written to EXP, and FENCE_SCL is signalled at the round's end. -/
  | reduceScaleAg (p vc : Nat)
  /-- REDUCE_RED_RS (R392): A reduce block arrives and is checked, aligned, added, rescaled and resealed, then sent or written. -/
  | reduceRedRs (p vc : Nat) (e : HoopErr)
  /-- REDUCE_RED_AG (R389): A gather block arrives, is checked, written to DST and forwarded. -/
  | reduceRedAg (p vc : Nat)
  /-- REDUCE_ACK (R401): An ACK frees blocks from the resend buffer. -/
  | reduceAck (p vc : Nat)
  /-- REDUCE_NAK (R401): A NAK causes a block to be resent once, and a second NAK fails it. -/
  | reduceNak (p vc : Nat)
  /-- REDUCE_ACK_TIMER (R401): 256 hub cycles after the first uncovered arrival, an ACK is sent. -/
  | reduceAckTimer (k : Nat)
  /-- REDUCE_RESEND_TIMEOUT (R401): A block unacknowledged for RUONG_TMO is resent once, and a second timeout reports a stall. -/
  | reduceResendTimeout (k : Nat)
  /-- RESCALE_ASSIST_RETURN (R413): In assisted mode the rind returns a parked rescaled block. -/
  | rescaleAssistReturn (k : Nat)
  /-- BUCKET_STEP_COMPLETE (R386): Every DST block holds the final sum and FENCE_RED is signalled. -/
  | bucketStepComplete (b : Nat)
  /-- HOLD_WINDOW_EXPIRY (R406): A hold window expires: under HOLD the contribution is missing, under FOLD the step proceeds without it. -/
  | holdWindowExpiry (b : Nat)
  /-- RIPEN_COPY (R407): A late contribution becomes ready and is copied into a ripening slot, or dropped. -/
  | ripenCopy (b : Nat)
  /-- HOOP_STALL_EXPIRY (R408): A bucket step incomplete for HOOP_STALL ticks is reported to the coordinator pair. -/
  | hoopStallExpiry (b : Nat)
  /-- FLIT_RECEIVE (R343): A flit is accepted or discarded with a NAK, and its acknowledgements and credits are processed. -/
  | flitReceive (p : Nat) (f : RawFlit)
  /-- FAILOVER_FLIT (R351): A FAILOVER flit is accepted or dropped as a duplicate by ORIG_SEQ. -/
  | failoverFlit (p : Nat) (f : RawFlit)
  /-- TRAIN_FLIT (R368): A TRAIN flit carries IDENTIFY data or a warm-hold announcement. -/
  | trainFlit (p : Nat) (f : RawFlit)
  /-- LINK_RETRY_TIMEOUT (R343): ACK_SEQ has not advanced for 4,096 hub cycles, and the sender resends from its oldest flit. -/
  | linkRetryTimeout (p : Nat)
  /-- PACKET_INJECT (R359): The source computes detours and injects a packet, or fails it with UNREACHABLE. -/
  | packetInject
  /-- TRANSIT_FORWARD (R355): A transit module forwards a flit by dimension order and detours without touching memory. -/
  | transitForward (p vc : Nat) (dbl : Bool)
  /-- TRANSIT_HOLD_EXPIRY (R356): A flit held too long in an ingress buffer is discarded and counted. -/
  | transitHoldExpiry (p vc : Nat)
  /-- WRITE (R340): A remote WRITE packet is checked and performed at the target, then answered with WRITE_CPL. -/
  | write (p vc : Nat)
  /-- READ_REQ (R340): A remote read request is performed and answered with READ_RSP. -/
  | readReq (p vc : Nat)
  /-- READ_RSP (R340): A read response returns data to its originating agent. -/
  | readRsp (p vc : Nat)
  /-- ATOMIC (R340): A remote atomic is performed and answered with ATOMIC_RSP. -/
  | atomic (p vc : Nat)
  /-- ATOMIC_RSP (R340): An atomic response returns the old value. -/
  | atomicRsp (p vc : Nat)
  /-- WRITE_CPL (R321): A write completion decrements the per-node outstanding count. -/
  | writeCpl (p vc : Nat)
  /-- ERROR_RSP (R365): An error response is reported by the originating agent. -/
  | errorRsp (p vc : Nat)
  /-- REMOTE_TIMEOUT (R366): A request without a response for RUONG_TMO fails, and its tag is quarantined. -/
  | remoteTimeout (tag : Nat)
  /-- TAG_QUARANTINE_END (R366): A timed-out tag becomes reusable after a further RUONG_TMO. -/
  | tagQuarantineEnd (tag : Nat)
  /-- ROUTE_DRAIN (R363): At an epoch change, injection stops until outstanding requests complete or fail. -/
  | routeDrain
  /-- ROUTE_TABLE_LOAD (R363): After the drain the new fault map and alias tables are loaded, RUONG_EPOCH is set and injection resumes. -/
  | routeTableLoad
  /-- ROUTE_CACHE_READY (R364): An assisted or client route cache comes into force, and client entries are checked against R359. -/
  | routeCacheReady (src : CacheSource)
  /-- LINK_TRAIN_STATE_DONE (R367): A training state completes and the port moves to the next state, through to ACTIVE. -/
  | linkTrainStateDone (p : Nat) (t : TrainInfo)
  /-- TRAIN_LIMIT_EXPIRY (R367): A training state overruns its limit: the attempt ends, and after three the port is FAILED. -/
  | trainLimitExpiry (p : Nat)
  /-- RETRAIN (R378): Writing RETRAIN makes the port retrain from EQUALIZE. -/
  | retrain (p : Nat)
  /-- ACTIVITY_FRAME (R563): At each period's end the hub sends an activity frame of cumulative tenant totals to the meter. -/
  | activityFrame
  /-- METER_FRAME_ACCEPT (R566): The meter accepts or rejects a frame and updates its totals and GAPS. -/
  | meterFrameAccept (frame : Bytes)
  /-- INTERVAL_CLOSE (R568): The meter closes a billing interval and writes a signed reading record. -/
  | intervalClose (tick energy : Nat)
  /-- METER_POWER_LOSS (R567): Meter power is lost; on return the interrupted interval is closed and a new one opened. -/
  | meterPowerLoss (tick energy : Nat)
  /-- SERVICE_CONTACT_CLOSE (R572): The service contact closes: TAMPER rises, the interval closes, and the service window opens. -/
  | serviceContactClose (tick energy : Nat)
  /-- METER_ABSENT (R571): The presence contact opens or status stops for 1,000,000 ticks, and the meter is absent. -/
  | meterAbsent (contactOpen : Bool)
  /-- METER_SEALED_FAULT (R571): A failed self-check or a shield breach puts the meter in sealed-fault. -/
  | meterSealedFault (breach : Bool)
  /-- SET_CAL (R572): Loads the energy-sense gain and offset, and CAL_VER rises. -/
  | setCal (m : MeterCmd)
  /-- SET_INTERVAL (R572): Sets the billing interval. -/
  | setInterval (m : MeterCmd)
  /-- CAL_CHECK (R572): Runs the reference-load check. -/
  | calCheck (m : MeterCmd)
  /-- FW_UPDATE (R572): Replaces the meter firmware with a signed image. -/
  | fwUpdate (m : MeterCmd)
  /-- METER_EXIT (R572): Once the service contact reopens, service mode ends and a new interval opens. -/
  | meterExit (m : MeterCmd)
  /-- FAULT_TRIAGE (R549): An ATTN event is classified, and triage acts, records, reports or escalates. -/
  | faultTriage (f : Option FaultInfo)
  /-- THRESHOLD_WINDOW_END (R558): A one-hour window ends with summary records for corrected errors. -/
  | thresholdWindowEnd
  /-- FAULT_LOG_APPEND (R556): A fault record is appended to the flash log ring within 100,000,000 ticks. -/
  | faultLogAppend
  /-- READ_WHEY_NAN_CNT (R251): A read of WHEY_NAN_CNT returns and clears the count. -/
  | readWheyNanCnt (c : Nat)
  /-- READ_PRESS_SAT_OTHER (R275): A read of PRESS_SAT_OTHER returns and clears it. -/
  | readPressSatOther (c : Nat)
  /-- READ_RUONG_DROP (R374): A read of RUONG_DROP returns and clears its counts. -/
  | readRuongDrop
  /-- READ_RUONG_PERR (R379): A read of RUONG_PERR returns and clears its counts. -/
  | readRuongPerr (p : Nat)
  /-- READ_RUONG_PCORR (R379): A read of RUONG_PCORR returns and clears its count. -/
  | readRuongPcorr (p : Nat)
  /-- READ_HOOP_DROP (R419): A read of HOOP_DROP returns and clears its counts. -/
  | readHoopDrop
  /-- READ_HOOP_CHK (R419): A read of HOOP_CHK returns and clears its counts. -/
  | readHoopChk
  /-- READ_HOOP_RSCL (R419): A read of HOOP_RSCL returns and clears its count. -/
  | readHoopRscl
  /-- READ_OBJ_DROP (R504): A read of OBJ_DROP returns and clears its counts. -/
  | readObjDrop
  /-- READ_INTEG_CORR (R559): A read of INTEG_CORR returns and clears its counts. -/
  | readIntegCorr
  /-- READ_INTEG_UNCORR (R559): A read of INTEG_UNCORR returns and clears its counts. -/
  | readIntegUncorr
  /-- READ_ETH_CNT (R594): A read of ETH_CNT returns and clears its counts. -/
  | readEthCnt (p : Nat)
  /-- READ_PCIE_LERR (R594): A read of PCIE_LERR returns and clears its counts. -/
  | readPcieLerr (l : Nat)
  /-- REGISTER_WRITE (R13): A write to any other register acts under its access code. -/
  | registerWrite (who : Agent) (addr width : Nat) (v : Dword)
  /-- REFERENCE_RETURN (R543): The 100 MHz reference returns after a loss, and the module leaves reset and runs the cold sequence. -/
  | referenceReturn
  /-- METER_POWER_RETURN (R567): Meter power returns: the interrupted interval is closed with T_END at the moment of loss, and a new interval opens. -/
  | meterPowerReturn (tick energy : Nat)
  /-- SERVICE_CONTACT_OPEN (R572): The service contact under the seal opens again, and an accepted EXIT takes effect: service mode ends and a new interval opens. -/
  | serviceContactOpen (tick energy : Nat)
  /-- ETH_LINK_UP (R594): A service Ethernet port completes link training and ETH_PSTAT.LINK becomes up. -/
  | ethLinkUp (p : Nat)
  /-- ETH_LINK_DOWN (R594): A service Ethernet port loses its link and ETH_PSTAT.LINK becomes down. -/
  | ethLinkDown (p : Nat)
  deriving DecidableEq, Repr

end Sys2Proof
end

