-- ==== Sys2Proof/WellFormed.lean ====
section
/-! DEFINITION. Which commands name only units that the module has: cores, group slots, ports, links,
ladles, counters (R4, R21, R145, R302, R469, R579, R583, R585). What an instruction word may hold is
a matter of its meaning: a word that breaks the encoding rules raises INSTR_FAULT (R192, R210). -/

namespace Sys2Proof

/-- Whether every unit that a command names exists. A message of this module to itself waits under the number 12, after
its twelve ports (R440). -/
def WellFormed (i : Instr) : Bool :=
  match i with
  | .powerApply _ => true
  | .powerLoss => true
  | .enHigh => true
  | .enLow => true
  | .powerGoodHandshake => true
  | .undervoltage => true
  | .railOutOfTolerance rail => decide (rail < 7)
  | .referenceLoss => true
  | .pllLossOfLock bit => decide (bit < 36)
  | .pressPllRelock => true
  | .relockEnd => true
  | .powerWindow _ => true
  | .flowLow => true
  | .rennetStage _ => true
  | .firmwareVerify => true
  | .rindUp _ => true
  | .earlyServiceEntry => true
  | .fullServiceEntry _ => true
  | .warmStartEntry => true
  | .watchdogExpiry => true
  | .recoveryImageWrite _ => true
  | .attestReq _ => true
  | .imagePut conn _ _ => decide (conn < 4)
  | .start conn _ => decide (conn < 4)
  | .selftest _ _ => true
  | .selftestRun c _ => decide (c < 256)
  | .meterRead conn _ => decide (conn < 4)
  | .logRead conn _ => decide (conn < 4)
  | .scanHold conn => decide (conn < 4)
  | .mgmtConnect => true
  | .debugTokenLoad conn _ _ => decide (conn < 4)
  | .bypass => true
  | .idcode => true
  | .samplePreload _ => true
  | .extest _ => true
  | .smbusReadSensor n => decide (n < 64)
  | .smbusReadStatus _ => true
  | .smbusAlertMask _ _ => true
  | .smbusIdentityRead => true
  | .smbusAlertResponse => true
  | .sensorLimitCross n _ => decide (n < 64)
  | .ethFrameReceive p _ => decide (p < 2)
  | .pfcPauseReceive p _ => decide (p < 2)
  | .cmReq qp _ => decide (qp < 8192)
  | .cmDreq qp => decide (qp < 8192)
  | .hello _ _ _ => true
  | .proof _ _ _ => true
  | .close qp => decide (qp < 8192)
  | .handshakeTimeout _ => true
  | .rdmaWrite qp _ _ _ => decide (qp < 8192)
  | .rdmaRead qp _ _ _ => decide (qp < 8192)
  | .compareAndSwap qp _ _ _ _ => decide (qp < 8192)
  | .fetchAndAdd qp _ _ _ => decide (qp < 8192)
  | .rdmaSend qp _ => decide (qp < 8192)
  | .leaseExpiry sess => decide (sess < 1024)
  | .qdbLease _ q => decide (q < 16384)
  | .doorbell _ q _ => decide (q < 16384)
  | .commandStart q => decide (q < 16384)
  | .commandRetire q _ => decide (q < 16384)
  | .launch q _ => decide (q < 16384)
  | .ladle q _ => decide (q < 16384)
  | .signal q _ => decide (q < 16384)
  | .ctxCreate q => decide (q < 16384)
  | .ctxDestroy q => decide (q < 16384)
  | .queueCreate q => decide (q < 16384)
  | .queueDestroy q => decide (q < 16384)
  | .memAlloc q _ => decide (q < 16384)
  | .memFree q => decide (q < 16384)
  | .share q => decide (q < 16384)
  | .fenceCreate q => decide (q < 16384)
  | .fenceDestroy q => decide (q < 16384)
  | .query q => decide (q < 16384)
  | .abort q => decide (q < 16384)
  | .jobJoin q => decide (q < 16384)
  | .setReg q => decide (q < 16384)
  | .bucketOpen q => decide (q < 16384)
  | .bucketClose q => decide (q < 16384)
  | .bucketCloseEffect b => decide (b < 65536)
  | .turnRegions q => decide (q < 16384)
  | .decisionPost q => decide (q < 16384)
  | .decisionDeadlineExpiry f => decide (f < 8)
  | .quarantineEnd _ _ => true
  | .slotEvict _ _ => true
  | .slotTake _ _ => true
  | .preempt c => decide (c < 256)
  | .contextSwitch c _ => decide (c < 256)
  | .ctxCounterUpdate => true
  | .blockAdmit c => decide (c < 256)
  | .groupResourceFree c g => decide (c < 256) && decide (g < 48)
  | .blockResourceFree c b => decide (c < 256) && decide (b < 16)
  | .launchBlocksEnd q _ => decide (q < 16384)
  | .nop c g _ => decide (c < 256) && decide (g < 48)
  | .bra c g _ => decide (c < 256) && decide (g < 48)
  | .jmp c g _ => decide (c < 256) && decide (g < 48)
  | .call c g _ => decide (c < 256) && decide (g < 48)
  | .ret c g _ => decide (c < 256) && decide (g < 48)
  | .exit c g _ => decide (c < 256) && decide (g < 48)
  | .bar c g _ => decide (c < 256) && decide (g < 48)
  | .syncg c g _ => decide (c < 256) && decide (g < 48)
  | .mov c g _ => decide (c < 256) && decide (g < 48)
  | .add c g _ => decide (c < 256) && decide (g < 48)
  | .sub c g _ => decide (c < 256) && decide (g < 48)
  | .mullo c g _ => decide (c < 256) && decide (g < 48)
  | .mulhiS c g _ => decide (c < 256) && decide (g < 48)
  | .mulhiU c g _ => decide (c < 256) && decide (g < 48)
  | .mad c g _ => decide (c < 256) && decide (g < 48)
  | .and c g _ => decide (c < 256) && decide (g < 48)
  | .or c g _ => decide (c < 256) && decide (g < 48)
  | .xor c g _ => decide (c < 256) && decide (g < 48)
  | .shl c g _ => decide (c < 256) && decide (g < 48)
  | .shr c g _ => decide (c < 256) && decide (g < 48)
  | .sar c g _ => decide (c < 256) && decide (g < 48)
  | .minS c g _ => decide (c < 256) && decide (g < 48)
  | .minU c g _ => decide (c < 256) && decide (g < 48)
  | .maxS c g _ => decide (c < 256) && decide (g < 48)
  | .maxU c g _ => decide (c < 256) && decide (g < 48)
  | .popc c g _ => decide (c < 256) && decide (g < 48)
  | .clz c g _ => decide (c < 256) && decide (g < 48)
  | .sel c g _ => decide (c < 256) && decide (g < 48)
  | .laneRd c g _ => decide (c < 256) && decide (g < 48)
  | .add64 c g _ => decide (c < 256) && decide (g < 48)
  | .sub64 c g _ => decide (c < 256) && decide (g < 48)
  | .fadd c g _ => decide (c < 256) && decide (g < 48)
  | .fmul c g _ => decide (c < 256) && decide (g < 48)
  | .fma c g _ => decide (c < 256) && decide (g < 48)
  | .fmin c g _ => decide (c < 256) && decide (g < 48)
  | .fmax c g _ => decide (c < 256) && decide (g < 48)
  | .fabs c g _ => decide (c < 256) && decide (g < 48)
  | .fneg c g _ => decide (c < 256) && decide (g < 48)
  | .testEq c g _ => decide (c < 256) && decide (g < 48)
  | .testNe c g _ => decide (c < 256) && decide (g < 48)
  | .testLtS c g _ => decide (c < 256) && decide (g < 48)
  | .testLeS c g _ => decide (c < 256) && decide (g < 48)
  | .testGtS c g _ => decide (c < 256) && decide (g < 48)
  | .testGeS c g _ => decide (c < 256) && decide (g < 48)
  | .testLtU c g _ => decide (c < 256) && decide (g < 48)
  | .testLeU c g _ => decide (c < 256) && decide (g < 48)
  | .testGtU c g _ => decide (c < 256) && decide (g < 48)
  | .testGeU c g _ => decide (c < 256) && decide (g < 48)
  | .ftestEq c g _ => decide (c < 256) && decide (g < 48)
  | .ftestNe c g _ => decide (c < 256) && decide (g < 48)
  | .ftestLt c g _ => decide (c < 256) && decide (g < 48)
  | .ftestLe c g _ => decide (c < 256) && decide (g < 48)
  | .ftestGt c g _ => decide (c < 256) && decide (g < 48)
  | .ftestGe c g _ => decide (c < 256) && decide (g < 48)
  | .plogAnd c g _ => decide (c < 256) && decide (g < 48)
  | .plogOr c g _ => decide (c < 256) && decide (g < 48)
  | .plogXor c g _ => decide (c < 256) && decide (g < 48)
  | .packp c g _ => decide (c < 256) && decide (g < 48)
  | .loadp c g _ => decide (c < 256) && decide (g < 48)
  | .gany c g _ => decide (c < 256) && decide (g < 48)
  | .gall c g _ => decide (c < 256) && decide (g < 48)
  | .gmask c g _ => decide (c < 256) && decide (g < 48)
  | .load c g _ _ => decide (c < 256) && decide (g < 48)
  | .store c g _ _ => decide (c < 256) && decide (g < 48)
  | .atomAdd c g _ _ => decide (c < 256) && decide (g < 48)
  | .atomFadd c g _ _ => decide (c < 256) && decide (g < 48)
  | .atomMinS c g _ _ => decide (c < 256) && decide (g < 48)
  | .atomMinU c g _ _ => decide (c < 256) && decide (g < 48)
  | .atomMaxS c g _ _ => decide (c < 256) && decide (g < 48)
  | .atomMaxU c g _ _ => decide (c < 256) && decide (g < 48)
  | .atomAnd c g _ _ => decide (c < 256) && decide (g < 48)
  | .atomOr c g _ _ => decide (c < 256) && decide (g < 48)
  | .atomXor c g _ _ => decide (c < 256) && decide (g < 48)
  | .atomExch c g _ _ => decide (c < 256) && decide (g < 48)
  | .atomCas c g _ _ => decide (c < 256) && decide (g < 48)
  | .fence c g _ => decide (c < 256) && decide (g < 48)
  | .srd c g _ => decide (c < 256) && decide (g < 48)
  | .mxissue c g _ => decide (c < 256) && decide (g < 48)
  | .mxwait c g _ => decide (c < 256) && decide (g < 48)
  | .wxissue c g _ => decide (c < 256) && decide (g < 48)
  | .wxwait c g _ => decide (c < 256) && decide (g < 48)
  | .cvt c g _ => decide (c < 256) && decide (g < 48)
  | .trackedAccessRelease c _ => decide (c < 256)
  | .loadReturn c _ => decide (c < 256)
  | .writePerformed c _ => decide (c < 256)
  | .atomicPerformed c _ => decide (c < 256)
  | .releaseWaitEnd c _ => decide (c < 256)
  | .remoteReleasePerform _ => true
  | .pressLoadStart c => decide (c < 256)
  | .pressLoadEnd c => decide (c < 256)
  | .pressSwap c => decide (c < 256)
  | .pressRowEntry c => decide (c < 256)
  | .pressOutputWrite c _ => decide (c < 256)
  | .pressRerun c => decide (c < 256)
  | .descriptorComplete c => decide (c < 256)
  | .batchOpen c => decide (c < 256)
  | .batchWaitExpiry c => decide (c < 256)
  | .pressClockStop c => decide (c < 256)
  | .domainWake (.press c) => decide (c < 256)
  | .domainWake (.cave ch) => decide (ch < 16)
  | .domainWake (.port p) => decide (p < 12)
  | .pressCoCtlWrite c _ => decide (c < 256)
  | .pressCcWrite c n _ _ => decide (c < 256) && decide (n < 64)
  | .pressSatFree c n => decide (c < 256) && decide (n < 32)
  | .chainGroupEntry c => decide (c < 256)
  | .chainGroupWrite c _ => decide (c < 256)
  | .wheyGroupRerun c _ => decide (c < 256)
  | .chainComplete c => decide (c < 256)
  | .wheyCcWrite c n _ _ => decide (c < 256) && decide (n < 64)
  | .cultureWrite c none _ => decide (c < 256)
  | .cultureWrite c (some l) _ => decide (c < 256) && decide (l < 64)
  | .ladleSubmit c k _ => decide (c < 256) && decide (k < 48)
  | .ladleCommandStart l => decide (l < 16)
  | .ladleBlock l _ => decide (l < 16)
  | .ladleComplete l => decide (l < 16)
  | .nvmeCommandComplete l _ => decide (l < 16)
  | .pcieLinkDown l => decide (l < 4)
  | .nvmeEnable l _ => decide (l < 4)
  | .cavePark ch => decide (ch < 16)
  | .caveWake ch => decide (ch < 16)
  | .patrolScrub _ _ => true
  | .qwRegenerate => true
  | .regenCheckDone _ => true
  | .phaseSet c _ => decide (c < 256)
  | .shardPtr c _ => decide (c < 256)
  | .segReplay c _ => decide (c < 256)
  | .turningPoint => true
  | .turningGranule _ => true
  | .mirrorComplete => true
  | .coreRemap c => decide (c < 256)
  | .heartbeatTimer => true
  | .memberLossExpiry _ => true
  | .standbyTakeover => true
  | .mirrorAckTimeout => true
  | .mailboxHeartbeat p vc => decide (p < 13) && decide (vc < 32)
  | .mailboxReport p vc => decide (p < 13) && decide (vc < 32)
  | .mailboxMirror p vc => decide (p < 13) && decide (vc < 32)
  | .mailboxAck p vc => decide (p < 13) && decide (vc < 32)
  | .mailboxDecision p vc => decide (p < 13) && decide (vc < 32)
  | .decisionGo p vc => decide (p < 13) && decide (vc < 32)
  | .mailboxReady p vc => decide (p < 13) && decide (vc < 32)
  | .spareMirrorCopy => true
  | .hoopScaleReady c _ => decide (c < 256)
  | .hoopBucketReady c _ => decide (c < 256)
  | .bucketStepOpen b => decide (b < 65536)
  | .bucketMatchLoad b => decide (b < 65536)
  | .reduceScaleRs p vc => decide (p < 12) && decide (vc < 32)
  | .reduceScaleAg p vc => decide (p < 12) && decide (vc < 32)
  | .reduceRedRs p vc _ => decide (p < 12) && decide (vc < 32)
  | .reduceRedAg p vc => decide (p < 12) && decide (vc < 32)
  | .reduceAck p vc => decide (p < 12) && decide (vc < 32)
  | .reduceNak p vc => decide (p < 12) && decide (vc < 32)
  | .reduceAckTimer _ => true
  | .reduceResendTimeout _ => true
  | .rescaleAssistReturn _ => true
  | .bucketStepComplete b => decide (b < 65536)
  | .holdWindowExpiry b => decide (b < 65536)
  | .ripenCopy b => decide (b < 65536)
  | .hoopStallExpiry b => decide (b < 65536)
  | .flitReceive p _ => decide (p < 12)
  | .failoverFlit p _ => decide (p < 12)
  | .trainFlit p _ => decide (p < 12)
  | .linkRetryTimeout p => decide (p < 12)
  | .packetInject => true
  | .transitForward p vc _ => decide (p < 12) && decide (vc < 32)
  | .transitHoldExpiry p vc => decide (p < 12) && decide (vc < 32)
  | .write p vc => decide (p < 12) && decide (vc < 32)
  | .readReq p vc => decide (p < 12) && decide (vc < 32)
  | .readRsp p vc => decide (p < 12) && decide (vc < 32)
  | .atomic p vc => decide (p < 12) && decide (vc < 32)
  | .atomicRsp p vc => decide (p < 12) && decide (vc < 32)
  | .writeCpl p vc => decide (p < 12) && decide (vc < 32)
  | .errorRsp p vc => decide (p < 12) && decide (vc < 32)
  | .remoteTimeout _ => true
  | .tagQuarantineEnd _ => true
  | .routeDrain => true
  | .routeTableLoad => true
  | .routeCacheReady _ => true
  | .linkTrainStateDone p _ => decide (p < 12)
  | .trainLimitExpiry p => decide (p < 12)
  | .retrain p => decide (p < 12)
  | .activityFrame => true
  | .meterFrameAccept _ => true
  | .intervalClose _ _ => true
  | .meterPowerLoss _ _ => true
  | .serviceContactClose _ _ => true
  | .meterAbsent _ => true
  | .meterSealedFault _ => true
  | .setCal _ => true
  | .setInterval _ => true
  | .calCheck _ => true
  | .fwUpdate _ => true
  | .meterExit _ => true
  | .faultTriage _ => true
  | .thresholdWindowEnd => true
  | .faultLogAppend => true
  | .readWheyNanCnt c => decide (c < 256)
  | .readPressSatOther c => decide (c < 256)
  | .readRuongDrop => true
  | .readRuongPerr p => decide (p < 12)
  | .readRuongPcorr p => decide (p < 12)
  | .readHoopDrop => true
  | .readHoopChk => true
  | .readHoopRscl => true
  | .readObjDrop => true
  | .readIntegCorr => true
  | .readIntegUncorr => true
  | .readEthCnt p => decide (p < 2)
  | .readPcieLerr l => decide (l < 4)
  | .registerWrite _ _ _ _ => true
  | .referenceReturn => true
  | .meterPowerReturn _ _ => true
  | .serviceContactOpen _ _ => true
  | .ethLinkUp p => decide (p < 2)
  | .ethLinkDown p => decide (p < 2)

end Sys2Proof
end

