-- ==== Sys2Proof/Decode.lean ====
section
/-! DEFINITION. The instruction word (R185 to R187, R193 to R209): its fields, the class and operation
of every thread instruction, and the commands that words of the operation table spell. -/

namespace Sys2Proof

/-- Field [hi:lo] of an instruction word. -/
def wordField (w : Dword) (hi lo : Nat) : Nat := (w.toNat >>> lo) % 2 ^ (hi + 1 - lo)

/-- The fields of a word other than CLASS and OP (R186). -/
def insnOfWord (w : Dword) : Insn :=
  { fmt := w.toNat.testBit 53, pe := w.toNat.testBit 52, pn := w.toNat.testBit 51,
    pi := BitVec.ofNat 3 (wordField w 50 48), dst := BitVec.ofNat 8 (wordField w 47 40),
    a := BitVec.ofNat 8 (wordField w 39 32), tail := BitVec.ofNat 32 (wordField w 31 0) }

/-- The word with a class, an operation and the other fields (R186). -/
def wordOfInsn (cls op : Nat) (i : Insn) : Dword :=
  BitVec.ofNat 64 ((cls % 16) * 2 ^ 60 + (op % 64) * 2 ^ 54 + i.fmt.toNat * 2 ^ 53 + i.pe.toNat * 2 ^ 52 +
    i.pn.toNat * 2 ^ 51 + i.pi.toNat * 2 ^ 48 + i.dst.toNat * 2 ^ 40 + i.a.toNat * 2 ^ 32 + i.tail.toNat)

/-- A thread instruction as a core, a group slot, a class, an operation and the other fields. -/
structure ThreadWord where
  core : Nat
  slot : Nat
  cls : Nat
  op : Nat
  insn : Insn
  deriving DecidableEq, Repr

/-- The thread instruction that a command is: the class and operation tables of R193 to R209. -/
def threadWord (i : Instr) : Option ThreadWord :=
  match i with
  | .nop c g i => some ⟨c, g, 0, 0, i⟩
  | .bra c g i => some ⟨c, g, 0, 1, i⟩
  | .jmp c g i => some ⟨c, g, 0, 2, i⟩
  | .call c g i => some ⟨c, g, 0, 3, i⟩
  | .ret c g i => some ⟨c, g, 0, 4, i⟩
  | .exit c g i => some ⟨c, g, 0, 5, i⟩
  | .bar c g i => some ⟨c, g, 0, 6, i⟩
  | .syncg c g i => some ⟨c, g, 0, 7, i⟩
  | .mov c g i => some ⟨c, g, 1, 0, i⟩
  | .add c g i => some ⟨c, g, 1, 1, i⟩
  | .sub c g i => some ⟨c, g, 1, 2, i⟩
  | .mullo c g i => some ⟨c, g, 1, 3, i⟩
  | .mulhiS c g i => some ⟨c, g, 1, 4, i⟩
  | .mulhiU c g i => some ⟨c, g, 1, 5, i⟩
  | .mad c g i => some ⟨c, g, 1, 6, i⟩
  | .and c g i => some ⟨c, g, 1, 8, i⟩
  | .or c g i => some ⟨c, g, 1, 9, i⟩
  | .xor c g i => some ⟨c, g, 1, 10, i⟩
  | .shl c g i => some ⟨c, g, 1, 12, i⟩
  | .shr c g i => some ⟨c, g, 1, 13, i⟩
  | .sar c g i => some ⟨c, g, 1, 14, i⟩
  | .minS c g i => some ⟨c, g, 1, 16, i⟩
  | .minU c g i => some ⟨c, g, 1, 17, i⟩
  | .maxS c g i => some ⟨c, g, 1, 18, i⟩
  | .maxU c g i => some ⟨c, g, 1, 19, i⟩
  | .popc c g i => some ⟨c, g, 1, 20, i⟩
  | .clz c g i => some ⟨c, g, 1, 21, i⟩
  | .sel c g i => some ⟨c, g, 1, 22, i⟩
  | .laneRd c g i => some ⟨c, g, 1, 23, i⟩
  | .add64 c g i => some ⟨c, g, 1, 24, i⟩
  | .sub64 c g i => some ⟨c, g, 1, 25, i⟩
  | .fadd c g i => some ⟨c, g, 2, 0, i⟩
  | .fmul c g i => some ⟨c, g, 2, 1, i⟩
  | .fma c g i => some ⟨c, g, 2, 2, i⟩
  | .fmin c g i => some ⟨c, g, 2, 3, i⟩
  | .fmax c g i => some ⟨c, g, 2, 4, i⟩
  | .fabs c g i => some ⟨c, g, 2, 5, i⟩
  | .fneg c g i => some ⟨c, g, 2, 6, i⟩
  | .testEq c g i => some ⟨c, g, 3, 0, i⟩
  | .testNe c g i => some ⟨c, g, 3, 1, i⟩
  | .testLtS c g i => some ⟨c, g, 3, 2, i⟩
  | .testLeS c g i => some ⟨c, g, 3, 3, i⟩
  | .testGtS c g i => some ⟨c, g, 3, 4, i⟩
  | .testGeS c g i => some ⟨c, g, 3, 5, i⟩
  | .testLtU c g i => some ⟨c, g, 3, 6, i⟩
  | .testLeU c g i => some ⟨c, g, 3, 7, i⟩
  | .testGtU c g i => some ⟨c, g, 3, 8, i⟩
  | .testGeU c g i => some ⟨c, g, 3, 9, i⟩
  | .ftestEq c g i => some ⟨c, g, 3, 16, i⟩
  | .ftestNe c g i => some ⟨c, g, 3, 17, i⟩
  | .ftestLt c g i => some ⟨c, g, 3, 18, i⟩
  | .ftestLe c g i => some ⟨c, g, 3, 19, i⟩
  | .ftestGt c g i => some ⟨c, g, 3, 20, i⟩
  | .ftestGe c g i => some ⟨c, g, 3, 21, i⟩
  | .plogAnd c g i => some ⟨c, g, 3, 32, i⟩
  | .plogOr c g i => some ⟨c, g, 3, 33, i⟩
  | .plogXor c g i => some ⟨c, g, 3, 34, i⟩
  | .packp c g i => some ⟨c, g, 3, 35, i⟩
  | .loadp c g i => some ⟨c, g, 3, 36, i⟩
  | .gany c g i => some ⟨c, g, 3, 40, i⟩
  | .gall c g i => some ⟨c, g, 3, 41, i⟩
  | .gmask c g i => some ⟨c, g, 3, 42, i⟩
  | .fence c g i => some ⟨c, g, 6, 0, i⟩
  | .mxissue c g i => some ⟨c, g, 7, 0, i⟩
  | .mxwait c g i => some ⟨c, g, 7, 1, i⟩
  | .wxissue c g i => some ⟨c, g, 8, 0, i⟩
  | .wxwait c g i => some ⟨c, g, 8, 1, i⟩
  | .cvt c g i => some ⟨c, g, 8, 2, i⟩
  | .srd c g i => some ⟨c, g, 9, 0, i⟩
  | .load c g sub i => some ⟨c, g, 4, sub.toNat, i⟩
  | .store c g sub i => some ⟨c, g, 4, 16 + sub.toNat, i⟩
  | .atomAdd c g wide i => some ⟨c, g, 5, 0 + wide.toNat, i⟩
  | .atomFadd c g wide i => some ⟨c, g, 5, 2 + wide.toNat, i⟩
  | .atomMinS c g wide i => some ⟨c, g, 5, 4 + wide.toNat, i⟩
  | .atomMinU c g wide i => some ⟨c, g, 5, 6 + wide.toNat, i⟩
  | .atomMaxS c g wide i => some ⟨c, g, 5, 8 + wide.toNat, i⟩
  | .atomMaxU c g wide i => some ⟨c, g, 5, 10 + wide.toNat, i⟩
  | .atomAnd c g wide i => some ⟨c, g, 5, 12 + wide.toNat, i⟩
  | .atomOr c g wide i => some ⟨c, g, 5, 14 + wide.toNat, i⟩
  | .atomXor c g wide i => some ⟨c, g, 5, 16 + wide.toNat, i⟩
  | .atomExch c g wide i => some ⟨c, g, 5, 18 + wide.toNat, i⟩
  | .atomCas c g wide i => some ⟨c, g, 5, 20 + wide.toNat, i⟩
  | _ => none

/-- The instruction word of a thread command (R186, R187). -/
def encodeThread (i : Instr) : Option Dword := (threadWord i).map fun t => wordOfInsn t.cls t.op t.insn

/-- CTL operations (R194). -/
def decodeCtl (c g op : Nat) (i : Insn) : Option Instr :=
  match op with
  | 0 => some (.nop c g i)
  | 1 => some (.bra c g i)
  | 2 => some (.jmp c g i)
  | 3 => some (.call c g i)
  | 4 => some (.ret c g i)
  | 5 => some (.exit c g i)
  | 6 => some (.bar c g i)
  | 7 => some (.syncg c g i)
  | _ => none

/-- INT operations (R196). -/
def decodeInt (c g op : Nat) (i : Insn) : Option Instr :=
  match op with
  | 0 => some (.mov c g i)
  | 1 => some (.add c g i)
  | 2 => some (.sub c g i)
  | 3 => some (.mullo c g i)
  | 4 => some (.mulhiS c g i)
  | 5 => some (.mulhiU c g i)
  | 6 => some (.mad c g i)
  | 8 => some (.and c g i)
  | 9 => some (.or c g i)
  | 10 => some (.xor c g i)
  | 12 => some (.shl c g i)
  | 13 => some (.shr c g i)
  | 14 => some (.sar c g i)
  | 16 => some (.minS c g i)
  | 17 => some (.minU c g i)
  | 18 => some (.maxS c g i)
  | 19 => some (.maxU c g i)
  | 20 => some (.popc c g i)
  | 21 => some (.clz c g i)
  | 22 => some (.sel c g i)
  | 23 => some (.laneRd c g i)
  | 24 => some (.add64 c g i)
  | 25 => some (.sub64 c g i)
  | _ => none

/-- FLT operations (R197). -/
def decodeFlt (c g op : Nat) (i : Insn) : Option Instr :=
  match op with
  | 0 => some (.fadd c g i)
  | 1 => some (.fmul c g i)
  | 2 => some (.fma c g i)
  | 3 => some (.fmin c g i)
  | 4 => some (.fmax c g i)
  | 5 => some (.fabs c g i)
  | 6 => some (.fneg c g i)
  | _ => none

/-- PRD operations (R199). -/
def decodePrd (c g op : Nat) (i : Insn) : Option Instr :=
  match op with
  | 0 => some (.testEq c g i)
  | 1 => some (.testNe c g i)
  | 2 => some (.testLtS c g i)
  | 3 => some (.testLeS c g i)
  | 4 => some (.testGtS c g i)
  | 5 => some (.testGeS c g i)
  | 6 => some (.testLtU c g i)
  | 7 => some (.testLeU c g i)
  | 8 => some (.testGtU c g i)
  | 9 => some (.testGeU c g i)
  | 16 => some (.ftestEq c g i)
  | 17 => some (.ftestNe c g i)
  | 18 => some (.ftestLt c g i)
  | 19 => some (.ftestLe c g i)
  | 20 => some (.ftestGt c g i)
  | 21 => some (.ftestGe c g i)
  | 32 => some (.plogAnd c g i)
  | 33 => some (.plogOr c g i)
  | 34 => some (.plogXor c g i)
  | 35 => some (.packp c g i)
  | 36 => some (.loadp c g i)
  | 40 => some (.gany c g i)
  | 41 => some (.gall c g i)
  | 42 => some (.gmask c g i)
  | _ => none

/-- MEM operations (R200): OP = 16 * kind + 8 * space + width. -/
def decodeMem (c g op : Nat) (i : Insn) : Option Instr :=
  match op / 16 with
  | 0 => some (.load c g (BitVec.ofNat 4 op) i)
  | 1 => some (.store c g (BitVec.ofNat 4 op) i)
  | _ => none

/-- ATM operations (R203): OP = 2 * op + W. -/
def decodeAtm (c g op : Nat) (i : Insn) : Option Instr :=
  let wide := op % 2 == 1
  match op / 2 with
  | 0 => some (.atomAdd c g wide i)
  | 1 => some (.atomFadd c g wide i)
  | 2 => some (.atomMinS c g wide i)
  | 3 => some (.atomMinU c g wide i)
  | 4 => some (.atomMaxS c g wide i)
  | 5 => some (.atomMaxU c g wide i)
  | 6 => some (.atomAnd c g wide i)
  | 7 => some (.atomOr c g wide i)
  | 8 => some (.atomXor c g wide i)
  | 9 => some (.atomExch c g wide i)
  | 10 => some (.atomCas c g wide i)
  | _ => none

/-- FNC, MAT, WHY and SYS operations (R204 to R209). -/
def decodeUnit (c g cls op : Nat) (i : Insn) : Option Instr :=
  match cls, op with
  | 6, 0 => some (.fence c g i)
  | 7, 0 => some (.mxissue c g i)
  | 7, 1 => some (.mxwait c g i)
  | 8, 0 => some (.wxissue c g i)
  | 8, 1 => some (.wxwait c g i)
  | 8, 2 => some (.cvt c g i)
  | 9, 0 => some (.srd c g i)
  | _, _ => none

/-- The command that the group in a slot of a core executes when it fetches a word: none for a
reserved class or operation (R192, R193). -/
def decodeThread (c g : Nat) (w : Dword) : Option Instr :=
  let i := insnOfWord w
  let op := wordField w 59 54
  match wordField w 63 60 with
  | 0 => decodeCtl c g op i
  | 1 => decodeInt c g op i
  | 2 => decodeFlt c g op i
  | 3 => decodePrd c g op i
  | 4 => decodeMem c g op i
  | 5 => decodeAtm c g op i
  | cls => decodeUnit c g cls op i

/-- The command that a word spells by the operation table's bits: no row of the table gives bits. -/
def decodeTableWord (_nbits _w : Nat) : Option Instr := none

end Sys2Proof
end

