-- ==== Sys2Proof/Machine/Bits.lean ====
section
/-! DEFINITION. Bit fields, byte order and sparse tables: the helpers every operation uses
(R8, R9, R16). -/

namespace Sys2Proof.Machine

/-- Field [hi:lo] of a number read as bits (R8, R9). -/
def fld (v hi lo : Nat) : Nat := (v >>> lo) % 2 ^ (hi + 1 - lo)

/-- A single bit of a number. -/
def bitOf (v n : Nat) : Bool := v.testBit n

/-- A Bool as a bit at a place. -/
def putBit (b : Bool) (n : Nat) : Nat := if b then 2 ^ n else 0

/-- A value cut to `w` bits and put at place `lo`. -/
def putFld (v w lo : Nat) : Nat := (v % 2 ^ w) <<< lo

/-- `v` with the bits of `mask` replaced by those of `n`. -/
def mergeBits (v n mask : Nat) : Nat := v ^^^ ((v ^^^ n) &&& mask)

/-- `a - b` modulo `2 ^ w` (R132, R478). -/
def subMod (w a b : Nat) : Nat := (a + (2 ^ w - b % 2 ^ w)) % 2 ^ w

/-- `a + n`, saturating at the largest `w`-bit number. -/
def satAdd (w a n : Nat) : Nat := min (a + n) (2 ^ w - 1)

/-- Sign extension of the low `w` bits of `v`. -/
def sext (w v : Nat) : Int :=
  if v.testBit (w - 1) then (v % 2 ^ w : Nat) - (2 ^ w : Nat) else (v % 2 ^ w : Nat)

/-- Two's complement of an integer in `w` bits. -/
def ofInt (w : Nat) (i : Int) : Nat := (i % (2 ^ w : Nat)).toNat

/-- A number from little-endian bytes (R9). -/
def leVal : Bytes → Nat
  | [] => 0
  | b :: bs => b.toNat + 256 * leVal bs

/-- The `n` little-endian bytes of a number (R9). -/
def leBytes : Nat → Nat → Bytes
  | 0, _ => []
  | n + 1, v => BitVec.ofNat 8 v :: leBytes n (v / 256)

/-- `n` bytes of a list from place `at`, zeros past its end. -/
def sliceB (bs : Bytes) (start n : Nat) : Bytes :=
  (List.range n).map fun i => bs.getD (start + i) 0

/-- The little-endian 64-bit word at byte `at` of a record. -/
def wordAt (bs : Bytes) (start : Nat) : Nat := leVal (sliceB bs start 8)

/-- A run of 64-bit words as bytes. -/
def wordsB (ws : List Nat) : Bytes := ws.flatMap (leBytes 8)

/-- Bytes filled up with zeros to `n`, or cut to `n`. -/
def padB (n : Nat) (bs : Bytes) : Bytes := sliceB bs 0 n

/-- Rounding up of a quotient. -/
def ceilDiv (a b : Nat) : Nat := (a + b - 1) / b

/-- What a sparse table holds under a key. -/
def mget? {α : Type} (m : Map α) (k : Nat) : Option α := m.lookup k

/-- What a sparse table holds under a key, or the table's default. -/
def mget {α : Type} (m : Map α) (d : α) (k : Nat) : α := (m.lookup k).getD d

/-- A table with the entry of key `k` put in, keys kept rising. -/
def mput {α : Type} : Map α → Nat → α → Map α
  | [], k, v => [(k, v)]
  | (k', v') :: m, k, v =>
    if k < k' then (k, v) :: (k', v') :: m
    else if k = k' then (k, v) :: m
    else (k', v') :: mput m k v

/-- A table without key `k`. -/
def mdel {α : Type} (m : Map α) (k : Nat) : Map α := m.filter fun kv => kv.1 ≠ k

/-- A write that keeps the canonical form: the default value is not listed. -/
def mset {α : Type} [DecidableEq α] (m : Map α) (d : α) (k : Nat) (v : α) : Map α :=
  if v = d then mdel m k else mput m k v

/-- A sorted list of keys with one key put in. -/
def kput : List Nat → Nat → List Nat
  | [], k => [k]
  | k' :: m, k => if k < k' then k :: k' :: m else if k = k' then k' :: m else k' :: kput m k

/-- A list of keys without one key. -/
def kdel (m : List Nat) (k : Nat) : List Nat := m.filter (fun x => x ≠ k)

/-- The keys of a table strictly rise. -/
def keysRise {α : Type} : Map α → Bool
  | [] => true
  | [_] => true
  | (a, _) :: (b, y) :: m => decide (a < b) && keysRise ((b, y) :: m)

/-- The canonical form of a table with default `d`: keys strictly rise and no entry is the default. -/
def mapWf {α : Type} [DecidableEq α] (d : α) (m : Map α) : Bool :=
  keysRise m && m.all fun kv => decide (kv.2 ≠ d)

/-- The first number below `n` that a test accepts. -/
def findBelow (n : Nat) (p : Nat → Bool) : Option Nat := (List.range n).find? p

/-- The list with its element at place `n` replaced. -/
def lset {α : Type} : List α → Nat → α → List α
  | [], _, _ => []
  | _ :: xs, 0, y => y :: xs
  | x :: xs, n + 1, y => x :: lset xs n y

/-- The numbers of the set bits among the low `n` bits. -/
def bitsOf (n v : Nat) : List Nat := (List.range n).filter fun i => v.testBit i

/-- The count of set bits among the low `n`. -/
def popCount (n v : Nat) : Nat := (bitsOf n v).length

end Sys2Proof.Machine
end

