-- ==== Sys2Proof/Machine/Formats.lean ====
section
/-! DEFINITION. The number formats and their conversions (R40 to R71, R615), and the binary32
arithmetic of R169, R198 and R219. Finite values are exact dyadic numbers `m * 2 ^ e`. -/

namespace Sys2Proof.Machine

/-- A value of any element format: NaN, an infinity, or a finite number with a sign (R42 to R52). -/
inductive Num where
  | nan
  | inf (neg : Bool)
  | fin (neg : Bool) (m : Nat) (e : Int)
  deriving DecidableEq, Repr

/-- Rounding modes (R63). -/
inductive Rnd where
  | rne | rtz | sr
  deriving DecidableEq, Repr

/-- Conversion flags of R65. -/
structure Flags4 where
  nan : Bool := false
  ovf : Bool := false
  ufl : Bool := false
  inx : Bool := false
  deriving DecidableEq, Repr

/-- Flags of two events together. -/
def Flags4.or (a b : Flags4) : Flags4 :=
  { nan := a.nan || b.nan, ovf := a.ovf || b.ovf, ufl := a.ufl || b.ufl, inx := a.inx || b.inx }

/-- An element whose scale exponent moves it by a power of two (R48, R50). -/
def Num.scale (v : Num) (t : Int) : Num :=
  match v with
  | .fin s m e => .fin s m (e + t)
  | v => v

/-- DF8 (R42, R43). -/
def df8Dec (b : Nat) : Num :=
  if b = 0x80 then .nan
  else
    let e := fld b 6 3
    if e = 0 then .fin (bitOf b 7) (fld b 2 0) (-9) else .fin (bitOf b 7) (8 + fld b 2 0) ((e : Int) - 10)

/-- DF16 (R44). -/
def df16Dec (b : Nat) : Num :=
  let e := fld b 14 9
  let f := fld b 8 0
  if e = 63 then (if f = 0 then .inf (bitOf b 15) else .nan)
  else if e = 0 then .fin (bitOf b 15) f (-39) else .fin (bitOf b 15) (512 + f) ((e : Int) - 40)

/-- binary32 (R45). -/
def f32Dec (b : Nat) : Num :=
  let e := fld b 30 23
  let f := fld b 22 0
  if e = 255 then (if f = 0 then .inf (bitOf b 31) else .nan)
  else if e = 0 then .fin (bitOf b 31) f (-149) else .fin (bitOf b 31) (2 ^ 23 + f) ((e : Int) - 150)

/-- A DI8 element under block exponent X (R51, R52); 0x80 reads as zero. -/
def di8Dec (x b : Nat) : Num :=
  if x = 255 then .nan
  else if fld b 6 0 = 0 then .fin false 0 0
  else .fin (bitOf b 7) (fld b 6 0) ((x : Int) - 133)

/-- A block-scaled element with its scale byte (R48, R49). -/
def scaled (v : Num) (s : Nat) : Num := if s = 255 then .nan else v.scale ((s : Int) - 127)

/-- Whether an upset part of `rem` out of `2 ^ sh` rounds the magnitude up (R63, R64). -/
def roundUp (mode : Rnd) (draw n rem sh : Nat) : Bool :=
  match mode with
  | .rtz => false
  | .rne => 2 * rem > 2 ^ sh || (2 * rem == 2 ^ sh && n % 2 == 1)
  | .sr =>
    let d := if sh ≤ 16 then rem <<< (16 - sh) else rem >>> (sh - 16)
    d + draw ≥ 65536

/-- The magnitude `m * 2 ^ e` as a whole number of units `2 ^ q`, and whether bits were lost (R63). -/
def roundAt (mode : Rnd) (draw m : Nat) (e q : Int) : Nat × Bool :=
  if q ≤ e then (m <<< (e - q).toNat, false)
  else
    let sh := (q - e).toNat
    let n := m >>> sh
    let rem := m % 2 ^ sh
    (if roundUp mode draw n rem sh then n + 1 else n, rem != 0)

/-- floor(log2) of the nonzero magnitude `m * 2 ^ e`. -/
def ilog2 (m : Nat) (e : Int) : Int := (m.log2 : Int) + e

/-- Rounding to `fb` fraction bits with smallest step `2 ^ qmin` and unbounded exponent: the
significand, its unit exponent and whether bits were lost (R63). -/
def roundFloat (fb : Nat) (qmin : Int) (mode : Rnd) (draw m : Nat) (e : Int) : Nat × Int × Bool :=
  if m = 0 then (0, qmin, false)
  else
    let q := max (ilog2 m e - fb) qmin
    let r := roundAt mode draw m e q
    if r.1 = 2 ^ (fb + 1) then (2 ^ fb, q + 1, r.2) else (r.1, q, r.2)

/-- Exponent field of a rounded significand: 0 for a subnormal one. -/
def expField (fb : Nat) (qmin : Int) (n : Nat) (q : Int) : Nat :=
  if n < 2 ^ fb then 0 else (q - qmin).toNat + 1

/-- Fraction field of a rounded significand. -/
def fracField (fb n : Nat) : Nat := if n < 2 ^ fb then n else n - 2 ^ fb

/-- The canonical NaNs (R46). -/
def f32Nan : Nat := 0x7FC00000
def f32Inf (neg : Bool) : Nat := if neg then 0xFF800000 else 0x7F800000

/-- binary32 of the magnitude `m * 2 ^ e` with a sign under RNE, with the flags of R615. -/
def f32Round (neg : Bool) (m : Nat) (e : Int) : Nat × Flags4 :=
  let r := roundFloat 23 (-149) .rne 0 m e
  let x := expField 23 (-149) r.1 r.2.1
  if x ≥ 255 then (f32Inf neg, { ovf := true, inx := true })
  else
    (putBit neg 31 + x <<< 23 + fracField 23 r.1,
      { inx := r.2.2, ufl := r.1 = 0 && m ≠ 0 })

/-- A value as binary32: exact where binary32 holds it, else rounded (R70, R71, R615). -/
def f32Enc (v : Num) : Nat × Flags4 :=
  match v with
  | .nan => (f32Nan, { nan := true })
  | .inf s => (f32Inf s, {})
  | .fin s m e => f32Round s m e

/-- An integer times a power of two as binary32; an exact zero is +0 (R169, R198). -/
def f32OfInt (v : Int) (e : Int) : Nat := (f32Round (v < 0) v.natAbs e).1

/-- The signed integer of a finite value in units of `2 ^ q`, for q at or below its exponent. -/
def signedAt (neg : Bool) (m : Nat) (e q : Int) : Int :=
  let n : Int := (m <<< (e - q).toNat : Nat)
  if neg then -n else n

/-- Exact sum of two values of R169's kinds, rounded once. -/
def numAdd (a b : Num) : Nat :=
  match a, b with
  | .nan, _ => f32Nan
  | _, .nan => f32Nan
  | .inf s, .inf t => if s = t then f32Inf s else f32Nan
  | .inf s, .fin .. => f32Inf s
  | .fin .., .inf t => f32Inf t
  | .fin s m e, .fin t n f =>
    let q := min e f
    let v := signedAt s m e q + signedAt t n f q
    if v = 0 then (if m = 0 ∧ n = 0 ∧ s ∧ t then 0x80000000 else 0) else f32OfInt v q

/-- Exact product of two values as a value (R198). -/
def numMul (a b : Num) : Num :=
  match a, b with
  | .nan, _ => .nan
  | _, .nan => .nan
  | .inf s, .inf t => .inf (s != t)
  | .inf s, .fin t n _ => if n = 0 then .nan else .inf (s != t)
  | .fin s m _, .inf t => if m = 0 then .nan else .inf (s != t)
  | .fin s m e, .fin t n f => .fin (s != t) (m * n) (e + f)

/-- FADD (R169). -/
def fAdd (a b : Nat) : Nat := numAdd (f32Dec a) (f32Dec b)

/-- FMUL (R197, R198). -/
def fMul (a b : Nat) : Nat := (f32Enc (numMul (f32Dec a) (f32Dec b))).1

/-- FMA, rounded once (R197, R198). -/
def fFma (a b c : Nat) : Nat := numAdd (numMul (f32Dec a) (f32Dec b)) (f32Dec c)

/-- An order key for non-NaN binary32 in which −0 stands below +0 (R198). -/
def f32Key (a : Nat) : Int := if bitOf a 31 then -((fld a 30 0 : Nat) : Int) - 1 else (fld a 30 0 : Nat)

/-- Whether a binary32 is NaN. -/
def isNan (a : Nat) : Bool := fld a 30 23 == 255 && fld a 22 0 != 0

/-- FMIN and FMAX (R198). -/
def fMin (a b : Nat) : Nat := if isNan a || isNan b then f32Nan else if f32Key a ≤ f32Key b then a else b
def fMax (a b : Nat) : Nat := if isNan a || isNan b then f32Nan else if f32Key a ≤ f32Key b then b else a

/-- Numeric order of R199: none with a NaN; the two zeros are equal. -/
def fCmp (a b : Nat) : Option Ordering :=
  if isNan a || isNan b then none
  else
    let k (x : Nat) : Int := if bitOf x 31 then -((fld x 30 0 : Nat) : Int) else (fld x 30 0 : Nat)
    some (compare (k a) (k b))

/-- A value to DF8 under R66. -/
def df8Enc (mode : Rnd) (draw : Nat) (v : Num) : Nat × Flags4 :=
  match v with
  | .nan => (0x80, { nan := true })
  | .inf s => (if s then 0xFF else 0x7F, { ovf := true, inx := true })
  | .fin s m e =>
    let r := roundFloat 3 (-9) mode draw m e
    let x := expField 3 (-9) r.1 r.2.1
    if r.1 = 0 then (0, { ufl := m ≠ 0, inx := m ≠ 0 })
    else if x > 15 then (if s then 0xFF else 0x7F, { ovf := true, inx := true })
    else (putBit s 7 + x <<< 3 + fracField 3 r.1, { inx := r.2.2 })

/-- A value to DF16 under R66. -/
def df16Enc (mode : Rnd) (draw : Nat) (v : Num) : Nat × Flags4 :=
  match v with
  | .nan => (0x7F00, { nan := true })
  | .inf s => (if s then 0xFE00 else 0x7E00, {})
  | .fin s m e =>
    let r := roundFloat 9 (-39) mode draw m e
    let x := expField 9 (-39) r.1 r.2.1
    if r.1 = 0 then (putBit s 15, { ufl := m ≠ 0, inx := m ≠ 0 })
    else if x > 62 then
      (putBit s 15 + (if mode = .rne then 0x7E00 else 0x7DFF), { ovf := true, inx := true })
    else (putBit s 15 + x <<< 9 + fracField 9 r.1, { inx := r.2.2 })

/-- The larger of two finite magnitudes; others count as zero. -/
def maxMag (a b : Nat × Int) : Nat × Int :=
  if b.1 = 0 then a else if a.1 = 0 then b
  else
    let q := min a.2 b.2
    if a.1 <<< (a.2 - q).toNat < b.1 <<< (b.2 - q).toNat then b else a

/-- The largest finite magnitude of a block, (0, 0) when none is nonzero (R67, R68). -/
def blockMax (vs : List Num) : Nat × Int :=
  vs.foldl (fun acc v => match v with | .fin _ m e => maxMag acc (m, e) | _ => acc) (0, 0)

/-- A number clamped to 0x00 to 0xFE. -/
def clampScale (x : Int) : Nat := (max 0 (min x 254)).toNat

/-- The block exponent of DI8 under R67 steps 1 to 4. -/
def di8Exp (vs : List Num) : Nat :=
  if vs.any (fun v => v = .nan) then 255
  else if vs.any (fun v => match v with | .inf _ => true | _ => false) then 254
  else
    let a := blockMax vs
    if a.1 = 0 then 0
    else
      let e := ilog2 a.1 a.2
      let r := roundAt .rne 0 a.1 a.2 (e - 6)
      clampScale (if r.1 = 128 then e + 128 else e + 127)

/-- One DI8 element under block exponent X (R67 step 5). -/
def di8Enc (mode : Rnd) (draw x : Nat) (v : Num) : Nat × Flags4 :=
  match v with
  | .nan => (0, {})
  | .inf s => (if s then 0xFF else 0x7F, { ovf := true, inx := true })
  | .fin s m e =>
    let q : Int := (x : Int) - 133
    let r := roundAt mode draw m e q
    let u := (roundAt .rne 0 m e q).1
    let n := min r.1 127
    (if n = 0 then 0 else putBit s 7 + n,
      { ovf := r.1 > 127 && u > 127, ufl := n = 0 && m ≠ 0, inx := r.2 || r.1 > 127 })

/-- A block of 32 values to DI8: X, elements and flags (R67). -/
def di8Block (mode : Rnd) (draws : List Nat) (vs : List Num) : Nat × List Nat × Flags4 :=
  let x := di8Exp vs
  if x = 255 then (255, vs.map (fun _ => 0), { nan := true })
  else
    let es := (vs.zip (draws ++ List.replicate vs.length 0)).map fun vd => di8Enc mode vd.2 x vd.1
    (x, es.map Prod.fst, es.foldl (fun f e => f.or e.2) {})

/-- The scale that R68 derives for a block going to DF8 (`wide` false) or DF16. -/
def deriveScale (wide : Bool) (vs : List Num) : Nat :=
  let a := blockMax vs
  if a.1 = 0 then 0x7F
  else
    let e := ilog2 a.1 a.2
    if wide then
      let s := e + 127 - 31
      let r := roundFloat 9 (-39) .rne 0 a.1 (a.2 + (127 - s))
      clampScale (if expField 9 (-39) r.1 r.2.1 > 62 then s + 1 else s)
    else
      let s := e + 127 - 8
      let r := roundFloat 3 (-9) .rne 0 a.1 (a.2 + (127 - s))
      clampScale (if expField 3 (-9) r.1 r.2.1 > 15 then s + 1 else s)

/-- The prime of the gradient residues (R58, R59). -/
def dgPrime : Nat := 65521

/-- The residue of weighted mantissas, votes or counts (R58 to R61). -/
def dgResidue (ms : List Int) : Nat :=
  let s := (ms.zip (List.range ms.length)).foldl (fun (acc : Int) mi => acc + ((mi.2 : Int) + 1) * mi.1) 0
  (s % (dgPrime : Int)).toNat

/-- A DG16 header from its fields (R58). -/
def dgHeader (x : Nat) (nan thin rip resc : Bool) (res : Nat) : Nat :=
  putFld x 8 24 + putBit nan 19 + putBit thin 18 + putBit rip 17 + putBit resc 16 + res

/-- One mantissa of DG16 under X (R69). -/
def dgMant (mode : Rnd) (draw x : Nat) (v : Num) : Int × Flags4 :=
  match v with
  | .fin s m e =>
    let r := roundAt mode draw m e ((x : Int) - 141)
    let i : Int := if s then -(r.1 : Int) else r.1
    if i > 32767 then (32767, { ovf := true, inx := true })
    else if i < -32768 then (-32768, { ovf := true, inx := true })
    else (i, { inx := r.2, ufl := r.1 = 0 && m ≠ 0 })
  | _ => (0, {})

/-- A group of 64 values to a DG16 block of 132 bytes under X (R69). -/
def dgBlock (mode : Rnd) (draws : List Nat) (x : Nat) (vs : List Num) : Bytes × Flags4 :=
  let bad := vs.any fun v => match v with | .fin .. => false | _ => true
  if bad then
    (leBytes 4 (dgHeader x true false false false 0) ++ List.replicate 128 0, { nan := true })
  else
    let es := (vs.zip (draws ++ List.replicate vs.length 0)).map fun vd => dgMant mode vd.2 x vd.1
    let ms := es.map Prod.fst
    (leBytes 4 (dgHeader x false false false false (dgResidue ms)) ++ ms.flatMap (fun m => leBytes 2 (ofInt 16 m)),
      es.foldl (fun f e => f.or e.2) {})

/-- Element i of a DG16 block as a value (R58, R70). -/
def dgDec (header mant : Nat) : Num :=
  if bitOf header 19 then .nan
  else
    let i := sext 16 mant
    .fin (i < 0) i.natAbs ((fld header 31 24 : Int) - 141)

end Sys2Proof.Machine
end

