-- ==== Sys2Proof/Machine/PressArith.lean ====
section
/-! DEFINITION. The arithmetic of one press output (R55 to R57, R72 to R80) and the residue checks
(R85 to R88). Every sum is exact. -/

namespace Sys2Proof.Machine

/-- One piece of a parent element: the parent, its scale exponent S - 127, and the piece's magnitude
and exponent (R55, R56). -/
structure PElem where
  num : Num
  scl : Int
  m : Nat
  k : Int
  deriving DecidableEq, Repr

/-- The piece with a code of a finite parent (R55, R110). -/
def pieceOf (fmt piece m : Nat) (e : Int) : Nat × Int :=
  match fmt, piece with
  | 2, 0 => (m >>> 5, e + 5)
  | 2, _ => (m % 32, e)
  | 3, 0 => (m >>> 16, e + 16)
  | 3, 1 => ((m >>> 8) % 256, e + 8)
  | 3, _ => (m % 256, e)
  | _, _ => (m, e)

/-- A press element from its stored bits, piece code and scale byte (`none`: no scales). For DI8 the
scale byte is the block exponent X (R51, R55). -/
def pElem (fmt piece bits : Nat) (scale : Option Nat) : PElem :=
  let v : Num :=
    match fmt with
    | 1 => di8Dec (scale.getD 255) bits
    | 2 => df16Dec bits
    | 3 => f32Dec bits
    | _ => df8Dec bits
  let s := if fmt = 1 then none else scale
  let v : Num := if s = some 255 then .nan else v
  let scl : Int := match s with | some b => (b : Int) - 127 | none => 0
  match v with
  | .fin _ m e => let p := pieceOf fmt piece m e; { num := v, scl := scl, m := p.1, k := p.2 }
  | v => { num := v, scl := scl, m := 0, k := 0 }

/-- The product of a term (R74 to R76), with what the range test of R75 did. -/
inductive PProd where
  /-- NaN with its cause code of R80. -/
  | nan (cause : Nat)
  | inf (neg : Bool)
  | zero
  | fin (neg : Bool) (p : Nat) (q : Int)
  deriving DecidableEq, Repr

/-- The product of a term, and the range outcome: 0 in range, 1 became infinite, 2 became zero. -/
def pProd (a b : PElem) : PProd × Nat :=
  match a.num, b.num with
  | .nan, .nan => (.nan 3, 0)
  | .nan, _ => (.nan 1, 0)
  | _, .nan => (.nan 2, 0)
  | .inf s, .inf t => (.inf (s != t), 0)
  | .inf s, .fin t n _ => if n = 0 then (.nan 4, 0) else (.inf (s != t), 0)
  | .fin s m _, .inf t => if m = 0 then (.nan 4, 0) else (.inf (s != t), 0)
  | .fin s m e, .fin t n f =>
    if m = 0 ∨ n = 0 then (.zero, 0)
    else
      let top := ilog2 (m * n) (e + f + a.scl + b.scl)
      if top ≥ 128 then (.inf (s != t), 1)
      else if top < -159 then (.zero, 2)
      else (.fin (s != t) (a.m * b.m) (a.k + b.k + a.scl + b.scl), 0)

/-- Whether a product is counted (R76). -/
def PProd.counted (p : PProd) : Bool := match p with | .fin _ n _ => n != 0 | _ => false

/-- The anchor of a group: the largest top exponent of its counted products (R77). -/
def anchorOf (ps : List PProd) : Option Int :=
  ps.foldl
    (fun acc p =>
      match p with
      | .fin _ n q =>
        if n = 0 then acc
        else match acc with
          | none => some (ilog2 n q)
          | some a => some (max a (ilog2 n q))
      | _ => acc)
    none

/-- A counted product in the window of anchor `a`: the floor and the part that the floor removed,
in units of `2 ^ q` (R77). -/
def windowPart (a : Int) (p : PProd) : Int × Bool × Int × Int :=
  match p with
  | .fin neg n q =>
    let sh := q - a + 51
    let (w, rem) : Nat × Nat := if sh ≥ 0 then (n <<< sh.toNat, 0) else (n >>> (-sh).toNat, n % 2 ^ (-sh).toNat)
    let sg (x : Nat) : Int := if neg then -(x : Int) else x
    (sg w, rem != 0, sg rem, q)
  | _ => (0, false, 0, 0)

/-- The prime 2 ^ 31 - 1 of the checksums (R85). -/
def resPrime : Nat := 2147483647

/-- The residue of the dyadic value `n * 2 ^ q` (R85). -/
def resOf (n q : Int) : Nat := ((n * (2 ^ (q % 31).toNat : Nat)) % (resPrime : Int)).toNat

/-- The residue of a piece with its block scale (R86). -/
def resElem (a : PElem) : Nat :=
  match a.num with
  | .fin neg m _ => if m = 0 then 0 else resOf (if neg then -(a.m : Int) else a.m) (a.k + a.scl)
  | _ => 0

/-- One group of up to 128 terms: window W, anchor, sticky and the residue D of the removed parts. -/
def groupSum (ps : List PProd) : Int × Int × Bool × Nat :=
  match anchorOf ps with
  | none => (0, 0, false, 0)
  | some a =>
    let parts := ps.map (windowPart a)
    (parts.foldl (fun s x => s + x.1) 0, a, parts.any (fun x => x.2.1),
      (parts.foldl (fun s x => s + resOf x.2.2.1 x.2.2.2) 0) % resPrime)

/-- round(V) of R78 for V in units of `2 ^ q`: the bits, OVF and INX. A tie takes the larger
magnitude when sticky is set. -/
def pressRound (v : Int) (q : Int) (sticky : Bool) : Nat × Bool × Bool :=
  if v = 0 then (0, false, sticky)
  else
    let m := v.natAbs
    let u := max (ilog2 m q - 23) (-149)
    let (n, inx) : Nat × Bool :=
      if u ≤ q then (m <<< (q - u).toNat, false)
      else
        let sh := (u - q).toNat
        let n := m >>> sh
        let rem := m % 2 ^ sh
        let up := 2 * rem > 2 ^ sh || (2 * rem == 2 ^ sh && (sticky || n % 2 == 1))
        (if up then n + 1 else n, rem != 0)
    let r := f32Round (v < 0) n u
    (r.1, r.2.ovf, inx || sticky || r.2.ovf)

/-- What one output of one streaming row in one pass gives. -/
structure PressOut where
  val : Nat
  ovf : Bool
  inx : Bool
  nan : Bool
  /-- First product out of range: term and KIND of PRESS_SR_LOG (R98). -/
  range : Option (Nat × Bool)
  /-- NaN source: cause and term (R80). -/
  src : Option (Nat × Nat)
  /-- Residue of the terms, and whether the output check passes (R87). -/
  rho : Nat
  ok : Bool
  deriving DecidableEq, Repr

/-- The first term that completes a pair of opposite infinities, the addend scanned first (R79, R80). -/
def infMix (addInf : Option Bool) (ps : List PProd) : Option Nat :=
  (ps.zip (List.range ps.length)).foldl
    (fun (acc : Option Bool × Option Nat) pj =>
      match acc.2, pj.1 with
      | none, .inf s =>
        match acc.1 with
        | none => (some s, none)
        | some t => if s = t then acc else (acc.1, some pj.2)
      | _, _ => acc)
    (addInf, none) |>.2

/-- The output of a list of terms with an addend; `delta` is an upset of the first group's window in
window steps (R72 to R80, R87). -/
def pressOutput (terms : List (PElem × PElem)) (addend : Nat) (delta : Int) : PressOut :=
  let prs := terms.map fun t => pProd t.1 t.2
  let ps := prs.map Prod.fst
  let range := (prs.zip (List.range prs.length)).findSome? fun x =>
    if x.1.2 = 1 then some (x.2, false) else if x.1.2 = 2 then some (x.2, true) else none
  let rho := ((terms.zip prs).foldl
    (fun s x => s + (if x.2.2 = 0 then resElem x.1.1 * resElem x.1.2 else 0)) 0) % resPrime
  let gs := (List.range (ceilDiv ps.length 128)).map fun g => groupSum ((ps.drop (128 * g)).take 128)
  let gs := match gs with | [] => [(0, 0, false, 0)] | g :: rest => (g.1 + delta, g.2) :: rest
  let sides := (gs.foldl (fun s g => s + resOf g.1 (g.2.1 - 51) + g.2.2.2) 0) % resPrime
  let ok := sides = rho
  let addv := f32Dec addend
  let nanAt := (ps.zip (List.range ps.length)).findSome? fun x =>
    match x.1 with | .nan c => some (c, x.2) | _ => none
  let addInf : Option Bool := match addv with | .inf s => some s | _ => none
  let firstInf : Option Bool := match addInf with
    | some s => some s
    | none => ps.findSome? fun p => match p with | .inf s => some s | _ => none
  let base : PressOut :=
    { val := 0, ovf := false, inx := false, nan := false, range := range, src := none, rho := rho, ok := ok }
  match nanAt with
  | some cj => { base with val := f32Nan, nan := true, src := some cj }
  | none =>
    match addv with
    | .nan => { base with val := f32Nan, nan := true, src := some (6, 0) }
    | addv =>
      match infMix addInf ps with
      | some j => { base with val := f32Nan, nan := true, src := some (5, j) }
      | none =>
        match firstInf with
        | some s => { base with val := f32Inf s }
        | none =>
          let q := gs.foldl (fun q g => min q (g.2.1 - 51)) (-149 : Int)
          let a : Int := match addv with | .fin s m e => signedAt s m e q | _ => 0
          let v := gs.foldl (fun v g => v + g.1 * (2 ^ (g.2.1 - 51 - q).toNat : Nat)) a
          let r := pressRound v q (gs.any fun g => g.2.2.1)
          { base with val := r.1, ovf := r.2.1, inx := r.2.2 }

end Sys2Proof.Machine
end

