-- ==== Sys2Proof/Config.lean ====
section
/-! DEFINITION. What an implementation fixes and the manual leaves open: free values and the
cryptographic functions of published standards. None has a body that a proof could see. -/

namespace Sys2Proof.Config

/-- The n-th free value: a value the manual leaves open, drawn fresh each time (log entry 2).
The drawing operation reduces it to the width that is needed. -/
opaque free : Nat → Nat

/-- SLH-DSA-SHA2-128s verification of FIPS 205: public key, message, signature (R511, R513 to R515). -/
opaque slhVerify : Bytes → Bytes → Bytes → Bool

/-- SLH-DSA-SHA2-128s signature over a message under the key pair formed from a seed (R524, R525). -/
opaque slhSign : Bytes → Bytes → Bytes

/-- The 32-byte public key formed from a seed (R524). -/
opaque slhPublic : Bytes → Bytes

/-- The seed that the PUF reading and the directory's helper data reproduce (R524). -/
opaque pufSeed : Bytes → Bytes → Bytes

/-- The vendor root key hash in mask ROM (R511, R513). -/
opaque vendorRootHash : Bytes

/-- The metrology authority key hash in the meter's ROM (R572). -/
opaque metrologyHash : Bytes

/-- The seed of the meter's own SLH-DSA key pair (R568). -/
opaque meterSeed : Bytes

/-- The 8 KiB meter certificate: public key, SERIAL and Erora signature, whose layout is not given (R574). -/
opaque meterCert : Bytes

/-- Whether an image of meter firmware is signed (R572): its form and its key are the meter's own. -/
opaque meterImageOk : Bytes → Bool

/-- Erora's key hash for debug unlock tokens (R589). -/
opaque debugKeyHash : Bytes

/-- The silicon revision that IDCODE reports (R588). -/
opaque siliconRevision : BitVec 4

/-- Erora's JEDEC manufacturer code in IDCODE (R588). -/
opaque jedecCode : BitVec 11

/-- Places in the flash directory, whose layout the manual leaves open (R507, R575). -/
opaque dirKeyAt : Nat
opaque dirSerialAt : Nat
opaque dirMacAt : Nat → Nat
opaque dirHelperAt : Nat
opaque dirHelperSize : Nat
opaque dirOwnerAt : Nat

/-- The place of an item of `len` bytes within `size` bytes from a base. -/
def dirPlace (base size len at_ : Nat) : Nat := base + at_ % (size - len + 1)

/-- The items of the 64 KiB directory: in the identity certificate, the public key (32 bytes), the module serial number
(8 bytes) and the MAC address of a port (6 bytes), then the PUF helper data, then the owner certificate (7,896 bytes). They
stand in the order in which R507 names them; which part each has is a DESIGN CHOICE (log entry 125). -/
def dirKey : Nat := dirPlace 0 0x4000 32 dirKeyAt
def dirSerial : Nat := dirPlace 0 0x4000 8 dirSerialAt
def dirMac (p : Nat) : Nat := dirPlace 0 0x4000 6 (dirMacAt p)
def dirHelperLen : Nat := dirHelperSize % 0x4001
def dirHelper : Nat := dirPlace 0x4000 0x4000 dirHelperLen dirHelperAt
def dirOwner : Nat := dirPlace 0x8000 0x8000 7896 dirOwnerAt

/-- Bytes 2 and 3 of the IPv4 link-local address that the management port takes (R582). -/
opaque linkLocal4 : Byte × Byte

/-- A random 32-byte nonce or 16-byte ticket, the n-th one drawn (R526, R580). -/
opaque nonce : Nat → Bytes

end Sys2Proof.Config
end

