-- ==== Sys2Proof/Machine/State.lean ====
section
/-! DEFINITION. The state of the module: every register, queue, buffer, table and mode the manual
gives it, as plain data; the reasons a command can stop; and the state after reset. Sparse tables
(`Map`) list only what differs from their default, which the operations name. -/

namespace Sys2Proof.Machine

/-- Why a command stops the model. -/
inductive Fault where
  /-- Raised by any command that names a unit the module does not have: a core from 256 on, a port
  from 12 on, a ladle from 16 on and the like (R4, R21). Safe: no such command exists on the part. -/
  | noSuchUnit
  deriving DecidableEq, Repr

/-- Why a command has no meaning here. -/
inductive Refusal where
  /-- Raised by an arm of `exec` that has no meaning yet. Safe: the model stops. -/
  | notModelled (mnemonic : String)
  deriving DecidableEq, Repr

/-- The statuses of R503. -/
inductive Status where
  | ok | alreadyDone | selftestDeferred | descInvalid | launchInvalid | handleInvalid | notFound
  | notPermitted | noResource | busy | configInvalid | modeMismatch | earlyService | addressFault
  | alignFault | instrFault | memPoison | pressFault | wheyFault | segInvalid | unreachable
  | remoteTimeout | residueFault | replayed | jobHalt | contextLost | aborted | ownerLost | cancelled
  | depFailed
  deriving DecidableEq, Repr

/-! ### One core (R145 to R184) -/

/-- A path: threads that share a program counter (R158). -/
structure Path where
  lanes : BitVec 32
  pc : Nat
  deriving DecidableEq, Repr

/-- A barrier of a block (R163): threads that have arrived and wait, threads that ended while it was
pending, and the count asked for by the latest arrival (0: every thread that has not ended). -/
structure Barrier where
  arrived : Nat
  gone : Nat
  target : Nat
  deriving DecidableEq, Repr

/-- A thread group in a group slot (R145, R147). -/
structure Group where
  /-- Block slot. -/
  blk : Nat
  /-- Index within the block (sr_gid). -/
  gid : Nat
  /-- The paths; the head is the running path. Empty: the group has ended. -/
  paths : List Path
  /-- Threads that have ended. -/
  ended : BitVec 32
  /-- Registers, keyed 256 * lane + register; default 0. -/
  regs : Map Word
  /-- Predicates p0 to p7 of a lane; default 0. -/
  preds : Map (BitVec 8)
  /-- Lanes that have arrived at a barrier and wait, by barrier (R163). -/
  barWait : Map (BitVec 32)
  /-- Lanes whose barrier has completed and that have not gone on yet. -/
  barDone : BitVec 32
  /-- Issue numbers of acquires and fences that hold every later access of the group (R314 to R316). -/
  holds : List Nat
  /-- Its map of register units, in the order of its registers (R149). -/
  units : List Nat
  /-- Poisoned register units of 64 bits, as 128 * lane + register / 2 (R296). -/
  bad : List Nat
  /-- Pending releases that hold later stores and atomics: issue number and scope (R313). -/
  rels : List (Nat × Nat)
  deriving DecidableEq, Repr

/-- A block in a block slot (R145, R150). -/
structure Block where
  /-- Context index. -/
  ctx : Nat
  /-- Queue index and sequence number of its LAUNCH. -/
  launch : Nat × Nat
  /-- sr_bid. -/
  bid : Nat
  /-- Groups G, registers per thread n, scratchpad units u. -/
  g : Nat
  n : Nat
  u : Nat
  /-- First 64 KiB unit of its run; 0 when u is 0. -/
  base : Nat
  /-- Group slots, in group order. -/
  slots : List Nat
  bars : Map Barrier
  /-- Ladle commands of its groups that are not done (R153). -/
  ladles : Nat
  /-- Whether the end of the block has been told to its launch. -/
  told : Bool
  deriving DecidableEq, Repr

/-- A block waiting at admission (R151, R483). -/
structure AdmBlock where
  ctx : Nat
  launch : Nat × Nat
  bid : Nat
  g : Nat
  n : Nat
  u : Nat
  entry : Nat
  param : Bytes
  deriving DecidableEq, Repr

/-- Kinds of tracked thread access (R172). -/
inductive AccKind where
  | load | store | atom
  deriving DecidableEq, Repr

/-- Where a tracked access stands: behind a conflicting one (R173), behind a release (R313), or on
its way to memory. -/
inductive AccSt where
  | conflict | release | sent
  deriving DecidableEq, Repr

/-- One lane's part of a memory instruction. The address of another node's memory is
`(physical node + 1) * 2 ^ 48 + local address` (R174, R362). -/
structure LaneOp where
  lane : Nat
  addr : Nat
  /-- The node ID as the program wrote it, which a packet carries as DST (R339, R362). -/
  node : Nat := 0
  /-- Store data, or operand b of an atomic. -/
  data : Nat := 0
  /-- Operand c of CAS. -/
  alt : Nat := 0
  /-- The value returned to the lane, once known (L1 hit, response). -/
  got : Option Nat := none
  deriving DecidableEq, Repr

/-- A memory instruction in the range tracker (R172, R175). -/
structure Acc where
  /-- Issue number: the order of R309. -/
  n : Nat
  /-- Issue number of its instruction, which it shares with the part of the instruction that reaches control and
  status space (R175). -/
  ins : Nat
  grp : Nat
  blk : Nat
  ctx : Nat
  kind : AccKind
  /-- Bytes per lane. -/
  width : Nat
  lanes : List LaneOp
  /-- Destination register of a load or atomic, 255 for zero. -/
  dst : Nat
  /-- Atomic operation code of R203. -/
  op : Nat
  /-- CACHE: true for 0b01. -/
  bypass : Bool
  /-- Scope of an acquire (0 for none). -/
  acq : Nat
  /-- Releases it waits for: issue number and scope. -/
  waits : List (Nat × Nat)
  /-- Scope of its own release (0 for none), for a hold at a remote target (R322). -/
  rel : Nat
  st : AccSt
  /-- Its place in the order in which accesses have left their cores (R311, R317). -/
  stamp : Nat := 0
  /-- Whether the part at this module's memory is performed. -/
  home : Bool
  /-- Responses from other nodes still due. -/
  due : Nat
  /-- Store to control and status space (R331). -/
  csr : Bool
  /-- A transfer that carries its data was poisoned on the hub fabric (R296). -/
  bad : Bool := false
  /-- The launch of its block, which waits for it (R327). -/
  launch : Nat × Nat := (0, 0)
  deriving DecidableEq, Repr

/-- A FENCE that has not ended (R315, R316). -/
structure FencePend where
  n : Nat
  grp : Nat
  /-- Release part with its scope; 0 when none is left. -/
  rel : Nat
  /-- Whether the acquire part is still to come. -/
  acq : Bool
  /-- Lines to drop: none for the whole L1. -/
  range : Option (Nat × Nat)
  deriving DecidableEq, Repr

/-! ### The press of a core (R72 to R144) -/

/-- An accepted press descriptor (R102, R108): its eight words as accepted. -/
structure PressEntry where
  words : List Dword
  /-- Scratchpad offset of the descriptor. -/
  off : Nat
  seq : Word
  /-- Issue number in the tracker. -/
  n : Nat
  ctx : Nat
  blk : Nat
  launch : Nat × Nat
  /-- Issued by a segment replay (R459). -/
  replay : Bool
  deriving DecidableEq, Repr

/-- The tag of a stationary piece tile (R123). -/
structure TileTag where
  wOff : Nat
  wStride : Nat
  wFmt : Nat
  piece : Nat
  wScaled : Bool
  sclOff : Nat
  sclStride : Nat
  cbOff : Nat
  aRows : Nat
  aCols : Nat
  deriving DecidableEq, Repr

/-- A shadow tile: what it loads, whether the last row pair has arrived, whether the load met poison. -/
structure Shadow where
  tag : TileTag
  full : Bool
  poison : Bool
  deriving DecidableEq, Repr

/-- A NaN event of a chain: cause, stage, row and column (R244, R250, R251). -/
structure NanSrc where
  cause : Nat
  term : Nat
  row : Nat
  col : Nat
  deriving DecidableEq, Repr

/-- The descriptor or batch that runs (R107, R127, R129). -/
structure PressRun where
  members : List PressEntry
  /-- Gathering members; FILL and WAIT as they stood when the batch opened (R136). -/
  gather : Bool
  fill : Nat
  wait : Nat
  /-- Pass in hand and rows of it that have entered. -/
  pass : Nat
  entered : Nat
  /-- The tile of the pass in hand is in the array. -/
  ready : Bool
  /-- Rows in the array, oldest first: pass and row. -/
  flight : List (Nat × Nat)
  /-- Rows whose residues failed, with the failing pass (R91), and the row that is re-run (R92). -/
  failed : List (Nat × Nat)
  rerun : Option Nat
  /-- A second mismatch (R93); a read that met poison (R296). -/
  dead : Bool
  poison : Bool
  /-- Outputs whose NaN source has been handed over: row and output (R80). -/
  nanSeen : List (Nat × Nat)
  /-- Saturation hits of pass 0 per member (R271). -/
  hits : List Nat
  /-- The active tile was loaded with a poisoned word. -/
  tilePoison : Bool
  deriving DecidableEq, Repr

/-- The press registers and queue of a core (R96 to R99, R104, R131 to R137, R271, R275). -/
structure Press where
  stat : BitVec 7 := 0
  srLog : Dword := 0
  fltLog : Dword := 0
  /-- Row of the mismatch that fltLog holds (R93). -/
  fltRow : Nat := 0
  queue : List PressEntry := []
  seq : Word := 0
  lastSeq : BitVec 16 := 0
  /-- PRESS_CO_CTL in force, and a written value that waits for the next batch head (R13, R136). -/
  coCtl : Word := 0x80800258
  coNext : Option Word := none
  /-- PRESS_CCn; default 0. -/
  cc : Map Word := []
  tile : Option TileTag := none
  shadow : Option Shadow := none
  /-- The descriptors and batches that have begun and not completed, oldest first: each behind one whose last row has
  entered (R107, R121). -/
  runs : List PressRun := []
  /-- Writes to PRESS_CO_CTL and PRESS_CCn that wait in the queue of 8 for the press clock: none for PRESS_CO_CTL, the
  number of a counter otherwise (R539). -/
  writes : List (Option Nat × Word) := []
  /-- The press clock is stopped (R143, R541). -/
  stopped : Bool := false
  /-- A wake request stands at the gate. -/
  wake : Bool := false
  satOvf : Bool := false
  satOther : Word := 0
  /-- PRESS_SATn; default 0. -/
  sat : Map Dword := []
  /-- A parity error stands on the input path: the next read of the running descriptor meets it (R295, R296). -/
  parity : Bool := false
  /-- Group slots stalled on a full queue, earliest first (R104). -/
  stall : List Nat := []
  deriving DecidableEq, Repr

/-! ### The whey unit of a core (R211 to R252) -/

/-- A stage of a chain (R216). -/
structure Stage where
  ty : Nat
  fn : Nat
  ka : Nat
  kb : Nat
  rnd : Nat
  dfmt : Nat
  dest : Nat
  opb : Nat
  opa : Nat
  deriving DecidableEq, Repr

/-- A chain as accepted: shape, flags, operand words and stages (R213, R233). -/
structure Chain where
  rows : Nat
  cols : Nat
  ccIdx : Nat
  ccEn : Bool
  dual : Bool
  x : Nat
  y : Nat
  z : Nat
  d : List Nat
  dscl : Nat
  xscl : Nat
  stages : List Stage
  /-- A CVT instruction, which has no descriptor (R233). -/
  cvt : Bool
  deriving DecidableEq, Repr

/-- An accepted chain in the queue (R227). -/
structure WheyEntry where
  chain : Chain
  off : Nat
  seq : Word
  n : Nat
  ctx : Nat
  blk : Nat
  launch : Nat × Nat
  /-- Replayed: index of the segment directory entry whose snapshot copy feeds its draws (R459). -/
  replay : Bool
  deriving DecidableEq, Repr

/-- A write, or a part of one, that has not landed: held at the turning filter, at a press-held bank or at a parked channel,
or behind other parts (R140, R283, R307, R429). -/
structure HeldWrite where
  addr : Nat
  data : Bytes
  deriving DecidableEq, Repr

/-- The chain that runs (R231). -/
structure WheyRun where
  e : WheyEntry
  /-- Groups entered and groups written. -/
  entered : Nat
  written : Nat
  /-- RED partials of the row in hand, keyed 64 * stage + lane. -/
  part : Map Word
  /-- Culture counters as the chain found them when it began (R238). -/
  ctr0 : Map Dword
  /-- NaN events so far: their number and the first. -/
  events : Nat
  first : Option NanSrc
  /-- A group whose dual runs differed waits for its re-run (R242). -/
  mism : Bool
  /-- Why nothing more is written. -/
  dead : Option Status
  /-- Blocks of the last group's write that have not landed yet (R307). -/
  late : List HeldWrite
  deriving DecidableEq, Repr

/-- A culture write that waits for earlier chains (R239): the last chain accepted before it, the
register (none: the seed) and the value. -/
structure CultWrite where
  after : Nat
  lane : Option Nat
  v : Dword
  deriving DecidableEq, Repr

/-- The whey registers, queue and NaN trap of a core (R228, R237, R246 to R252). -/
structure Whey where
  stat : BitVec 8 := 0
  seq : Word := 0
  queue : List WheyEntry := []
  /-- The chains that have begun and not completed, oldest first (R231). -/
  runs : List WheyRun := []
  lastSeq : BitVec 16 := 0
  log0 : Dword := 0
  log1 : Dword := 0
  nanCnt : Word := 0
  ocLive : Dword := 0
  seed : Dword := 0
  /-- WHEY_CULT_CTRl; default 0. -/
  ctr : Map Dword := []
  /-- WHEY_CCn; default 0. -/
  cc : Map Word := []
  writes : List CultWrite := []
  stall : List Nat := []
  /-- Seed and counters of the segment being replayed (R459). -/
  rseed : Dword := 0
  rctr : Map Dword := []
  deriving DecidableEq, Repr

/-! ### Phase page and segments of a core (R421 to R424, R457 to R459, R464) -/

/-- The phase page, the tick counts and the segment recorder of a core. -/
structure Phase where
  /-- Current step and phase; none before the first mark (R423). -/
  cur : Option (Nat × Nat) := none
  /-- Steps whose FORWARD mark this core has performed last (R427). -/
  fwd : Option Nat := none
  /-- Reference ticks of FORWARD to TURNING in the current step; default 0. -/
  ticks : Map Word := []
  /-- Reference ticks of earlier steps, by step, kept until their turning points (R425). -/
  prev : Map (Map Word) := []
  /-- Culture snapshots by step: seed and counters (R422), kept until the turning point that stores them. -/
  snaps : Map (Dword × Map Dword) := []
  /-- A FORWARD mark held under R428 or R453. -/
  held : Option Dword := none
  segBuf : Dword := 0
  /-- A segment replay whose items are not all issued: segment, offset of the next item, items left (R459). -/
  segLeft : Option (Nat × Nat × Nat) := none
  /-- SEG_STAT but for BUSY: LAST, LAST_ID, REFUSAL. -/
  segLast : Nat := 0
  segLastId : Nat := 0
  segRefusal : Nat := 0
  /-- Segment recording: identifier, items so far, next free offset in the buffer. -/
  recSeg : Option (Nat × Nat × Nat) := none
  /-- Offset one past the last record placed in the segment buffer. -/
  segEnd : Nat := 4096
  /-- A recording that passed the end of the buffer (R458). -/
  recOvf : Bool := false
  deriving DecidableEq, Repr

/-- A ladle command as submitted (R298): its words, who sent it and what follows it. -/
structure LadleCmd where
  words : List Dword
  /-- Identity of its source for AFTER_PREV: core slot, queue or rind (R301, R302). -/
  src : Nat × Nat
  /-- Submission order. -/
  order : Nat
  /-- The previous command of the source (R301). -/
  prev : Option Nat
  ctx : Nat
  /-- Core and block slot that sent it, for a program's command. -/
  core : Option (Nat × Nat)
  /-- Queue and sequence number of the LADLE or LAUNCH command it belongs to. -/
  cmd : Option (Nat × Nat)
  /-- Issue number of the submitting store: earlier accesses are its release (R326). -/
  n : Nat
  deriving DecidableEq, Repr

/-- A logical core. -/
structure Core where
  /-- Context that the core runs. -/
  ctx : Option Nat := none
  /-- The rind has stopped its groups (R179). -/
  stopped : Bool := false
  groups : Map Group := []
  blocks : Map Block := []
  admQ : List AdmBlock := []
  /-- Issue number of the next access. -/
  isn : Nat := 0
  acc : List Acc := []
  fences : List FencePend := []
  /-- Group slot that issued last (R156). -/
  lastSlot : Nat := 47
  issueCnt : Dword := 0
  resCnt : Dword := 0
  /-- sr_ccycle: core cycles since the core's clock started, as last observed (R157). -/
  cycle : Dword := 0
  /-- CORE_STAT bits 2:0. -/
  stat : BitVec 3 := 0
  /-- L1 lines: line number and its 64 bytes. -/
  l1 : Map Bytes := []
  /-- Accumulator memory and operand cache by element; default 0. -/
  accMem : Map Word := []
  oc : Map Word := []
  /-- Poisoned 64-bit units of both, by element / 2. -/
  accBad : List Nat := []
  ocBad : List Nat := []
  press : Press := {}
  whey : Whey := {}
  phase : Phase := {}
  /-- Ladle slot words, keyed 8 * slot + word; default 0 (R302). -/
  lslot : Map Dword := []
  ladleQ : List LadleCmd := []
  ladleStall : List Nat := []
  fullStall : Bool := false
  /-- LCH_PARAMn words, keyed 8 * block slot + word; default 0 (R506). -/
  param : Map Dword := []
  /-- A self-test that waits for the phase boundary (R527): who asked and what. -/
  test : Option (Option Nat × SelfTest) := none
  deriving DecidableEq, Repr

/-! ### Ladles (R298 to R304, R587) -/

/-- A command that a ladle runs. Blocks are numbered along the destination rows. -/
structure LadleRun where
  cmd : LadleCmd
  /-- Blocks that are read and written. -/
  done : List Nat
  /-- Blocks whose remote read or write has no response yet. -/
  due : List Nat
  /-- Why it writes no further block. -/
  fail : Option Status
  /-- Bytes written. -/
  bytes : Nat
  /-- Blocks of an NVMe read whose data has come and that wait for their memory: number, address, bytes (R140, R283,
  R429). The number of such a block is the place of its first byte in the command's data. -/
  wait : List (Nat × Nat × Bytes) := []
  /-- Bytes of one NVMe command, the NVMe commands that are under way with their ticks of issue, and the number of the
  next one to issue (R587). -/
  chunk : Nat := 0
  nv : List (Nat × Nat) := []
  nvNext : Nat := 0
  /-- Blocks of an NVMe write that have been read. -/
  data : Map Bytes := []
  deriving DecidableEq, Repr

/-! ### Ruong (R333 to R379) -/

/-- A packet as header fields and the 216 bytes that follow the header (R337, R339). -/
structure Packet where
  dst : Nat
  src : Nat
  job : Nat
  opc : Nat
  tc : Nat
  rel : Bool := false
  stripe : Bool := false
  hops : Nat := 0
  tag : Nat := 0
  addr : Nat := 0
  dtr0 : Nat := 0
  dtr1 : Nat := 0
  len : Nat := 0
  aux : Nat := 0
  agent : Nat := 0
  body : Bytes := []
  deriving DecidableEq, Repr

/-- A flit in an ingress buffer: its packet, whether DL and DTR of its VC are set, and its arrival tick. -/
structure Ingress where
  pkt : Packet
  vc : Nat
  tick : Nat
  deriving DecidableEq, Repr

/-- What a response to a tag is for. -/
inductive TagUse where
  | load (c n : Nat) (lanes : List Nat) (line : Option Nat)
  | store (c n : Nat)
  | atom (c n lane : Nat)
  | ladleRead (l k : Nat)
  | ladleWrite (l k : Nat)
  | mirror (id : Nat)
  | mirrorValid (step slot : Nat)
  | spare
  | client
  deriving DecidableEq, Repr

/-- An outstanding tag (R366): its use, the node, the tick at which it times out, and the tick at
which its quarantine ends once it has timed out. -/
structure TagRec where
  use : TagUse
  node : Nat
  since : Nat
  quar : Option Nat
  deriving DecidableEq, Repr

/-- A flit that waits to be sent or to be acknowledged: VC and packet, KIND and origin (R342, R351). -/
structure TxFlit where
  pkt : Packet
  vc : Nat
  seq : Nat
  /-- FAILOVER: original port and SEQ. -/
  orig : Option (Nat × Nat)
  /-- Times it has been sent again (R344). -/
  resends : Nat := 0
  deriving DecidableEq, Repr

/-- A Ruong port (R342 to R351, R367 to R379). -/
structure Port where
  state : Nat := 0
  nbrNode : BitVec 16 := 0
  nbrPort : BitVec 4 := 0
  width : BitVec 2 := 0
  reversed : Bool := false
  polinv : BitVec 16 := 0
  attempts : BitVec 8 := 0
  /-- Failed attempts in a row. -/
  tries : Nat := 0
  en : Bool := true
  retrain : Bool := false
  halfOk : Bool := true
  perr : Dword := 0
  pcorr : Dword := 0
  /-- Next SEQ to send and next SEQ expected. -/
  txSeq : Nat := 0
  rxSeq : Nat := 0
  /-- A NAK is set on the next outgoing flit. -/
  nak : Bool := false
  /-- Flits are discarded until the expected SEQ arrives, without a further NAK (R343). -/
  disc : Bool := false
  /-- The flows of this port stay on the other port of the pair until the next route change (R351). -/
  diverted : Bool := false
  /-- Retry buffer, oldest first. -/
  retry : List TxFlit := []
  /-- Flits that wait for credits or for room in the retry buffer. -/
  txq : List TxFlit := []
  /-- Credits spent per VC and not returned; default 0. -/
  spent : Map Nat := []
  /-- Credits to return per VC; default 0. -/
  owed : Map Nat := []
  /-- Last SEQ accepted on this port, and the last accepted in failover, for R351. -/
  last : Nat := 4095
  /-- Buffered flits by VC. -/
  ingress : List Ingress := []
  /-- VCs whose head request has an uncorrectable error on its way between the memory and the port (R296). -/
  upset : List Nat := []
  /-- Tick at which the training state began. -/
  since : Nat := 0
  /-- The IDENTIFY state follows a warm-hold announcement (R370). -/
  warmHold : Bool := false
  /-- Flit slots left of reduction, data and checkpoint in the round (R349). -/
  share : List Nat := []
  deriving DecidableEq, Repr

/-- A change of membership epoch (R363): fault map, aliases, epoch, and at JOB_JOIN the ring registers
HOOP_GRID, HOOP_NEXT and HOOP_PREV of the join record (R387, R486). -/
structure EpochChange where
  fmap : Map Byte
  aliases : Map Word
  epoch : Word
  ring : Option (Dword × Dword × Dword) := none
  deriving DecidableEq, Repr

/-- The common part of Ruong. -/
structure Fabric where
  tmo : Word := 0x000F4240
  arb : Word := 0x00080404
  epoch : Word := 0
  drop : Dword := 0
  /-- RUONG_FMAP, RUONG_ALIAS and RUONG_RCACHE; default 0. -/
  fmap : Map Byte := []
  aliases : Map Word := []
  rcache : Map Word := []
  /-- Packets that wait to be injected. -/
  inj : List Packet := []
  nextTag : Nat := 0
  tags : Map TagRec := []
  /-- Requests that wait for a tag (R366). -/
  tagWait : List (TagUse × Packet) := []
  /-- Requests refused for want of membership (R354). -/
  refused : Nat := 0
  /-- An epoch change that has been ordered and whose drain has not begun. -/
  change : Option EpochChange := none
  /-- Injection is stopped for the drain of R363, with the tables to load at its end. -/
  drain : Option EpochChange := none
  /-- The new map is loaded and the route cache is not in force yet (R364). -/
  cacheWait : Bool := false
  /-- Release requests held at this target under R322, each with the requests that it waits for. -/
  held : List (Packet × List Packet) := []
  deriving DecidableEq, Repr

/-! ### The hoop engine (R380 to R420) -/

/-- A bucket step in progress. -/
structure BStep where
  b : Nat
  step : Nat
  /-- The contribution is folded (R407). -/
  folded : Bool := false
  /-- The step is stopped: RESIDUE_FAULT or MISSING. -/
  stop : Bool := false
  /-- Start tick of the hold window (R405). -/
  window : Option Nat := none
  /-- Tick of the last progress, for the stall time (R408). -/
  since : Nat
  /-- Chunks with the agreed exponents, and blocks with the final sum. -/
  sclDone : List Nat := []
  redDone : List Nat := []
  /-- Whether FENCE_SCL and FENCE_RED of the step have been signalled. -/
  scl : Bool := false
  red : Bool := false
  /-- Hops done or parked: kind (0 scale, 1 reduce), stage and index. -/
  hops : List (Nat × Nat × Nat) := []
  /-- Exponent chunks held between stages, keyed by chunk. -/
  exps : Map Bytes := []
  /-- The first hop of the entry stage has begun, and the ripening slots that join (R408). -/
  begun : Bool := false
  joined : List Nat := []
  /-- The late contribution is copied or dropped. -/
  lateDone : Bool := false
  /-- Messages that have passed the arrival check and wait for a contribution or for room to send. -/
  wait : List (Nat × Bytes) := []
  deriving DecidableEq, Repr

/-- A block in the resend buffer (R401): destination, body, tick sent, resends by NAK and by timeout. -/
structure Resend where
  node : Nat
  stripe : Bool
  body : Bytes
  since : Nat
  naks : Nat
  touts : Nat
  deriving DecidableEq, Repr

/-- An ACK that gathers (R401): source node, the first two words of the bodies that it covers without
their COUNT, first index and bitmap. -/
structure AckGather where
  node : Nat
  stripe : Bool
  head : Bytes
  first : Nat
  map : Nat
  deriving DecidableEq, Repr

/-- A rescaled block that waits for the rind in assisted mode (R413). -/
structure Parked where
  b : Nat
  step : Nat
  stage : Nat
  j : Nat
  /-- The 20-bit lane sums, their exponent, flags and COUNT. -/
  lanes : List Int
  x : Nat
  flags : Nat
  count : Nat
  deriving DecidableEq, Repr

/-- The hoop engine. -/
structure Hoop where
  bktBase : Dword := 0
  bktCnt : Word := 0
  stateBase : Dword := 0
  grid : Dword := 0
  next : Dword := 0
  prev : Dword := 0
  ctl : Word := 0x00400000
  stall : Word := 0x01312D00
  stat : BitVec 9 := 0
  late : Dword := 0
  drop : Dword := 0
  chk : Dword := 0
  rscl : Dword := 0
  steps : List BStep := []
  /-- Match buffer: source node and body. -/
  matchB : List (Nat × Bytes) := []
  resend : List Resend := []
  /-- Blocks that wait for a place in the full resend buffer, oldest first: node, STRIPE and body (R401). -/
  sendq : List (Nat × Bool × Bytes) := []
  acks : List AckGather := []
  /-- First failures of a block and step: identity key (R400). -/
  fails : List Nat := []
  /-- Upsets that the checks of the next hop of a reduction meet (R400). -/
  upset : HoopErr := {}
  parked : List Parked := []
  /-- Bucket entries that the match unit holds (R413). -/
  loaded : List Nat := []
  /-- Buckets with a close request that has not taken effect (R382). -/
  closing : List Nat := []
  /-- Buckets whose slot has been closed since the table was set up. -/
  closed : List Nat := []
  /-- Folded steps of open buckets: bucket and step (R385). -/
  folds : List (Nat × Nat) := []
  /-- First tick at which the match buffer has held a message of a bucket's next step whose contribution is not ready, by
  bucket (R405). -/
  early : Map Nat := []
  /-- Step of the latest expired hold window (R409). -/
  chronicFrom : Nat := 0
  /-- Steps in which a hold window expired, kept until their turning points (R425). -/
  expired : List Nat := []
  deriving DecidableEq, Repr

/-! ### Turning, replay log and coordinators (R421 to R465) -/

/-- A turning copy in progress (R428 to R436). -/
structure TurnRun where
  /-- Its number among the copies of this module, by which completions of its mirror writes know it. -/
  id : Nat
  step : Nat
  slot : Nat
  /-- Granules in the table and those copied. -/
  total : Nat
  done : List Nat
  urgent : List Nat
  /-- Mirror writes whose completion is due, and whether one failed. -/
  due : Nat
  mfail : Bool
  /-- Writes of the slot's header that wait for a parked channel: offset in the slot and bytes (R283, R431). -/
  todo : List (Nat × Bytes) := []
  deriving DecidableEq, Repr

/-- A complete turning whose mirror is due: its copy's number, its step and slot, and the completions that have not come
(R435). -/
structure MirrorWait where
  id : Nat
  step : Nat
  slot : Nat
  due : Nat
  deriving DecidableEq, Repr

/-- The copy of a mirror slot to the spare in the place of a lost twin: spare, slot, next part (granules, then the header,
then its VALID word) and completions due (R455). -/
structure SpareCopy where
  spare : Nat
  slot : Nat
  next : Nat
  due : Nat
  deriving DecidableEq, Repr

/-- A coordinator decision (R441, R444). -/
structure Decision where
  epoch : Nat
  dseq : Nat
  flags : Nat
  step : Nat
  base : Nat
  ents : List Nat
  node : Nat
  deriving DecidableEq, Repr

/-- What a coordinator knows of a module, by its own node ID: tick of its last heartbeat, and the last two steps reported as
complete turnings and as complete mirrors held for its twin (R442, R444). -/
structure Beat where
  node : Nat
  tick : Nat
  turns : List Nat
  mirrors : List Nat
  deriving DecidableEq, Repr

/-- Turning, log, ring and coordinator registers and state. -/
structure Turn where
  ctl : Word := 0x00070000
  tblCnt : Word := 0
  tblBase : Dword := 0
  slot0 : Dword := 0
  slot1 : Dword := 0
  /-- TURN_STAT but for BUSY. -/
  stat : Dword := 0
  rlogBase : Dword := 0
  phaseRing : Dword := 0
  coordCtl : Dword := 0
  coordTime : Dword := 0x004C4B40000F4240
  coordStat : Dword := 0
  /-- The regions that the client named, base and length (R426). -/
  client : List (Nat × Nat) := []
  run : Option TurnRun := none
  /-- Copies begun so far. -/
  runs : Nat := 0
  /-- Complete turnings whose mirrors are due, oldest first (R435). -/
  mirror : List MirrorWait := []
  /-- The first step whose mirror held here for the twin counts: one after the replay that put a spare into the pair
  (R455). -/
  mirrorFrom : Nat := 0
  held : List HeldWrite := []
  /-- Dirty granules of slots 0 and 1, and whether the bitmap is set in full. -/
  dirty0 : List Nat := []
  dirty1 : List Nat := []
  full0 : Bool := false
  full1 : Bool := false
  /-- Hub counts: REDUCE ticks by step, and TURNING ticks since the last turning point (R424). -/
  hubReduce : Map Word := []
  hubTurning : Word := 0
  /-- Latest turning point performed (R427). -/
  lastPoint : Option Nat := none
  beats : List Beat := []
  /-- Tick of this module's last heartbeat. -/
  lastBeat : Nat := 0
  /-- As active coordinator: the decision in hand, whether the standby holds it and whether it is sent. -/
  decide : Option (Decision × Bool × Bool) := none
  /-- Members that have sent READY for it, and the tick at which it was mirrored. -/
  ready : List Nat := []
  decideTick : Nat := 0
  /-- As standby: the last decision mirrored here (R445). -/
  mirrored : Option Decision := none
  /-- The last decision this member accepted (R446). -/
  accepted : Option Decision := none
  /-- A decision of a lower node with the same order has been seen (R447). -/
  lost : Bool := false
  /-- Parts of a decision that has not arrived whole (R441). -/
  parts : List (Nat × Bytes) := []
  /-- Candidates still to be named as standby, in order (R440). -/
  cands : List Nat := []
  /-- Idle spares, by node ID. -/
  spares : List Nat := []
  /-- Copy of a mirror slot to the spare of a lost twin (R455). -/
  spareCopy : Option SpareCopy := none
  /-- The job that this module left by a warm start; kept (R456). -/
  left : Option Nat := none
  /-- This module has rejoined that job: the epoch of its join record and LAST_STEP at the join (R456). -/
  rejoin : Option (Nat × Nat) := none
  /-- This module is a spare that waits for the copy of the lost node's turning (R455). -/
  spareWait : Bool := false
  /-- An accepted decision has still to be restored and answered with READY (R449). -/
  restoring : Bool := false
  /-- Culture snapshots of a restore for cores that hold no job context yet, by core (R451). -/
  cultures : Map (Dword × Map Dword) := []
  /-- Retired logical cores that wait for the start (R454). -/
  retireList : List Nat := []
  /-- Mailbox messages dropped for a reserved TYPE (R441). -/
  badMail : Nat := 0
  deriving DecidableEq, Repr

/-! ### Contexts, queues and objects (R466 to R506) -/

/-- An admitted command (R477 to R481). -/
structure Cmd where
  seq : Nat
  entry : Bytes
  started : Bool
  /-- Its status, once committed (R500). -/
  st : Option Status
  result : Nat
  /-- LAUNCH: blocks that have not ended, cores that ran it, whether it is the re-run of R272. -/
  left : Nat
  rerun : Bool
  /-- First fault of its blocks or work. -/
  fault : Option Status
  /-- Its wait is queued on the fence: it counts in WAITERS (R475). -/
  waits : Bool
  /-- That wait holds one of the hub's 256 slots; without one the rind holds it (R488). -/
  slot : Bool
  /-- STATUS of the fence at the signal that satisfied its wait (R487). -/
  sat : Option Status
  /-- Its SIG_FENCE may be signalled, and it holds references (R479). -/
  sigOk : Bool
  refs : Bool
  /-- A started LAUNCH or LADLE whose work has been handed out; a LAUNCH's parameter record (R483). -/
  ran : Bool
  param : Bytes
  deriving DecidableEq, Repr

/-- A queue (R473, R478, R481). -/
structure Queue where
  /-- 0 free, 1 active, 2 admin, 3 destroying. -/
  state : Nat
  gen : BitVec 8
  k : Nat
  prio : Nat
  /-- Context index; none for an admin queue. -/
  ctx : Option Nat
  sess : Nat
  ring : Nat
  cpl : Nat
  ri : Word
  adm : Word
  started : Word
  /-- Admitted commands that have not retired. -/
  cmds : List Cmd
  /-- Doorbell kept while the queue holds no slot (R491). -/
  bell : Option Word
  slot : Bool
  /-- Dispatch order stamp, for the victim of R493. -/
  stamp : Nat
  deriving DecidableEq, Repr

/-- A context (R472). -/
structure Context where
  /-- 1 active, 2 lost. -/
  state : Nat
  gen : BitVec 8
  job : BitVec 16
  loss : Status
  sess : Nat
  /-- The billing tenant: the client entry of the session that has created the context (R561). -/
  tenant : Nat := 0
  lossCore : BitVec 16
  cores : BitVec 256
  issued : Dword
  resident : Dword
  pressBusy : Dword
  wheyBusy : Dword
  ladleBytes : Dword
  save : Nat
  saveObj : Option Nat
  lossQueue : Word
  lossSeq : Word
  /-- Memory objects and fences it holds, by index. -/
  mems : List Nat
  fences : List Nat
  slot : Bool
  stamp : Nat
  /-- CTX_DESTROY waits for its queues (R501). -/
  dying : Bool
  /-- CORE_ISSUE_CNT and CORE_RES_CNT at switch-in, by core. -/
  base : Map Dword
  /-- Core state saved at a switch, by core: what the save area's last slot holds. -/
  saved : Map Core
  deriving DecidableEq, Repr

/-- A memory object (R474). -/
structure MemObj where
  /-- 1 live, 2 freeing. -/
  state : Nat
  gen : BitVec 8
  base : Nat
  owner : Nat
  rdma : BitVec 3
  place : Nat
  /-- Length in 64 KiB units. -/
  len : Nat
  refs : Nat
  /-- Billing tenant (R561). -/
  tenant : Nat
  deriving DecidableEq, Repr

/-- A fence (R475). -/
structure Fence where
  gen : BitVec 8
  value : Dword
  status : Status
  firstErr : Status
  owner : Nat
  waiters : Nat
  refs : Nat
  deriving DecidableEq, Repr

/-- A session (R466, R467, R580). -/
structure Session where
  gen : BitVec 8
  /-- Index of the client entry. -/
  client : Nat
  rights : BitVec 3
  renewed : Nat
  admin : Nat
  ticket : Bytes
  qps : List Nat
  deriving DecidableEq, Repr

/-- Indices of one kind: generation of each index, indices never allocated from here on, freed
indices with the tick of their free, and indices that have left quarantine, in order (R470). -/
structure Pool where
  gens : Map (BitVec 8) := []
  fresh : Nat := 0
  quar : List (Nat × Nat) := []
  free : List Nat := []
  deriving DecidableEq, Repr

/-- An RDMA request that a queue pair has taken and not completed (R328). -/
inductive RdmaReq where
  | write (key : Word) (addr : Nat) (data : Bytes)
  | read (key : Word) (addr len : Nat)
  | swap (key : Word) (addr : Nat) (cmp swap : Dword)
  | add (key : Word) (addr : Nat) (v : Dword)
  deriving DecidableEq, Repr

/-- A queue pair of a service port (R577, R579). -/
structure Qp where
  /-- Session it belongs to; none while it is a bootstrap queue pair. -/
  sess : Option Nat
  /-- Its session has ended: no key is left for it (R502). -/
  closed : Bool := false
  since : Nat
  /-- Handshake: public key, requested rights and nonce after HELLO. -/
  hello : Option (Bytes × Dword × Bytes)
  error : Bool
  /-- From its CM REQ: path MTU, the client's address; and the next hop, VLAN and DSCP of the packets sent to it (R577,
  R584). -/
  mtu : Nat := 1024
  peer : Bytes := []
  hop : Bytes := []
  vlan : Nat := 0
  dscp : Nat := 0
  /-- RDMA requests that are not complete, in message order, and the blocks of the WRITE at their head that are not
  performed (R140, R283, R328, R429). -/
  reqs : List RdmaReq := []
  /-- The transfer that carries what its next read or atomic returns was poisoned on the hub fabric (R296). -/
  bad : Bool := false
  blocks : Option (List HeldWrite) := none
  deriving DecidableEq, Repr

/-- A management connection (R583). -/
structure Conn where
  /-- Addresses of the management port in force when it was accepted (R582). -/
  ips : List Bytes := []
  since : Nat
  hello : Option (Bytes × Dword × Bytes)
  rights : BitVec 3
  deriving DecidableEq, Repr

/-- A client-assisted decision list of DECISION_POST (R485). -/
structure Post where
  fn : Nat
  obj : Nat
  off : Nat
  fence : Word
  /-- Value of the fence when the decision was posted. -/
  base : Dword
  deriving DecidableEq, Repr

/-- The object tables and the registers of R504. -/
structure Objects where
  ctxs : Map Context := []
  queues : Map Queue := []
  mems : Map MemObj := []
  fences : Map Fence := []
  sess : Map Session := []
  ctxPool : Pool := {}
  queuePool : Pool := {}
  memPool : Pool := {}
  fencePool : Pool := {}
  sessPool : Pool := {}
  quar : Word := 0x17D78400
  drop : Dword := 0
  fenceBase : Dword := 0
  /-- Last queue served by the arbiter (R492). -/
  lastQ : Nat := 16383
  stamp : Nat := 0
  /-- Contention that has begun, by duty function: its first tick (R38). -/
  contend : Map Nat := []
  /-- Client-assisted functions whose next decision the rind takes (R38). -/
  rindTurn : List Nat := []
  posts : List Post := []
  /-- Job membership: job, controlling session and replay fence (R486). -/
  job : Option (Nat × Nat × Word) := none
  /-- Members of the job: node, twin, position; and its idle spares. -/
  members : List (Nat × Nat × Nat) := []
  qps : Map Qp := []
  conns : Map Conn := []
  nonces : Nat := 0
  deriving DecidableEq, Repr

/-! ### Regeneration (R253 to R276) -/

/-- The regeneration registers and the regeneration that runs. -/
structure Regen where
  ctl : Word := 0x00000064
  tblBase : Dword := 0
  tblCnt : Word := 0
  stat : Word := 0
  /-- Steps whose regeneration is due, oldest first. -/
  due : List Nat := []
  /-- Ranges of SRC that the due regeneration has yet to read (R256). -/
  reads : List (Nat × Nat) := []
  /-- Records whose assisted check is to come: whether every group passes, and the LAST code of a switch. -/
  checks : Map (Bool × Nat) := []
  /-- Records whose bank may switch once every byte of it has been written, with their LAST code (R267). -/
  switches : Map Nat := []
  deriving DecidableEq, Repr

/-! ### Start, clocks, power, triage, meter, interfaces -/

/-- The parsed NET field (R584). Of each list, the entries are those of service ports 0 and 1 and the management port; of
prefix lengths and gateways, those of the service ports and the management port. Addresses are bytes in the order of the
image. -/
structure Net where
  ip6 : List Bytes := []
  ip4 : List Bytes := []
  plen4 : List Nat := []
  plen6 : List Nat := []
  vlan : List Nat := []
  pfcOn : Bool := false
  pfcPrio : Nat := 0
  dscp : Nat := 0
  cnpDscp : Nat := 0
  gw4 : List Bytes := []
  deriving DecidableEq, Repr

/-- The parsed configuration (R514), with the image as stored. -/
structure Cfg where
  image : Bytes
  digest : Bytes
  duty : BitVec 16
  torus : BitVec 16
  origin : BitVec 16
  ilv : BitVec 8
  seq : Word
  deadline : List Nat
  clients : List (Bytes × BitVec 3)
  net : Net
  owner : Bytes
  deriving DecidableEq, Repr

/-- Where the start stands beyond STAGE (R512, R515, R591). -/
inductive Mode where
  | normal | recovery | scanHold | refLost | off | tripped
  deriving DecidableEq, Repr

/-- A write of a flash region by a verified image: the region as R583 codes it, the image and the connection that sent it,
if any (R508, R509). -/
structure FlashWrite where
  region : Nat
  img : Bytes
  conn : Option Nat
  deriving DecidableEq, Repr

/-- Start state (R507 to R528). -/
structure Start where
  stage : BitVec 4 := 0
  warm : Bool := false
  cfgRet : Bool := false
  fail : BitVec 16 := 0
  fwVer : Word := 0
  flashChg : Bool := false
  fwDigest : Bytes := []
  /-- The whole firmware image has been verified and the rind cores are released. -/
  released : Bool := false
  mode : Mode := .normal
  cfg : Option Cfg := none
  /-- Identity seed, public key and whether it is valid (R524). -/
  seed : Bytes := []
  idPub : Bytes := []
  idValid : Bool := false
  /-- The public key of the firmware's signer, whose hash is in mask ROM (R511, R513). -/
  rootPub : Bytes := []
  /-- RIND_UP has brought up vat 0 and stacks 0 to 5 (R517). -/
  up : Bool := false
  /-- Flash contents; an erased byte reads 0xFF. -/
  flash : Map Byte := []
  heartbeat : Nat := 0
  /-- A start request that waits: true for cold. -/
  request : Option Bool := none
  debugUnlock : Bool := false
  /-- Stacks and cave channels in service. -/
  stackUp : BitVec 24 := 0
  caveUp : BitVec 16 := 0
  /-- A write of a flash region that is under way (R508, R509, R521). -/
  flashWrite : Option FlashWrite := none
  /-- Regions whose last write was cut off: what they hold fails its check (R509). -/
  torn : List Nat := []
  deriving DecidableEq, Repr

/-- Clock registers and gates (R529 to R546). -/
structure Clocks where
  stat : Dword := 0
  lost : Dword := 0
  ovr : BitVec 4 := 0
  relock : Bool := false
  /-- PLLs, by CLK_STAT bit, that have lost lock and whose domains have stopped (R544). -/
  down : BitVec 36 := 0
  /-- The press clock of vat 0 runs at 600 MHz (R142, R542). -/
  fast : Bool := false
  deriving DecidableEq, Repr

/-- Power handshake and ceiling (R601 to R612). -/
structure Power where
  vin : Bool := true
  en : Bool := true
  /-- The rails of R603 in tolerance, beside V_AON: rails 1 to `rails`. -/
  rails : Nat := 6
  /-- The sequencer starts the rails in their order; else they fall in the reverse order (R603). -/
  rise : Bool := true
  pgood : Bool := true
  /-- The reference monitor does not see the reference (R543). -/
  refGone : Bool := false
  /-- EN must toggle before the rails rise again. -/
  latched : Bool := false
  pos : BitVec 3 := 0
  /-- The limit of R606 but for FLOW_LOW, in units of 1/128 W. -/
  base : Nat := 460800
  /-- REF_CNT at which the window of R606 began. -/
  winFrom : Nat := 0
  pAvg : BitVec 16 := 0
  k : BitVec 6 := 0
  /-- Thermal floors and gate counts per vat. -/
  floors : List Nat := [0, 0, 0, 0]
  kv : List Nat := [0, 0, 0, 0]
  trip : BitVec 2 := 0
  flowLow : Bool := false
  therm : Bool := false
  pwr : Bool := false
  /-- Latest SMBus sensor words; default 0x8000. -/
  sensors : Map (BitVec 16) := []
  alert : Bool := false
  crossed : Bool := false
  alertMask : BitVec 16 := 0
  deriving DecidableEq, Repr

/-- Memory controllers (R283 to R286, R295 to R297). -/
structure MemCtl where
  /-- CAVE_CTL bits 31, 30, 24 and 23:16. -/
  srHold : Bool := true
  parkEn : Bool := true
  scrubEn : Bool := true
  scrubHrs : BitVec 8 := 0x18
  parked : BitVec 16 := 0
  wakes : BitVec 16 := 0
  deriving DecidableEq, Repr

/-- A fault record before it is laid out (R557). -/
structure FaultRec where
  tick : Nat
  cls : Nat
  source : Nat
  action : Nat
  seq : Nat
  step : Nat
  epoch : Nat
  d0 : Nat
  d1 : Nat
  d2 : Nat
  deriving DecidableEq, Repr

/-- A fault that has caused a replay: its class, its subject, the job step, and whether the replay of that step has begun
(R550). -/
structure Caused where
  cls : Nat
  subject : Nat
  step : Nat
  replayed : Bool
  deriving DecidableEq, Repr

/-- Fault triage and the log (R549 to R559). -/
structure Triage where
  corr : Dword := 0
  uncorr : Dword := 0
  lastClass : BitVec 8 := 0
  lastAct : BitVec 3 := 0
  unfit : Bool := false
  replayReq : Bool := false
  degraded : Bool := false
  /-- Events that wait for triage, oldest first. -/
  attn : List FaultInfo := []
  /-- The latest records, and SEQ of the next record to go to flash. -/
  log : List FaultRec := []
  flashed : Nat := 0
  seq : Nat := 0
  /-- Events of the sliding window of R554, by kind and unit: tick and number. -/
  counts : Map (List (Nat × Nat)) := []
  /-- Corrections since the last summary, by memory (R558). -/
  ce : Map Nat := []
  windowFrom : Nat := 0
  /-- Faults that have caused a replay (R550). -/
  caused : List Caused := []
  deriving DecidableEq, Repr

/-- Totals of a tenant: press cycles and residency units of HBM, cave and die-shared (R564). -/
structure Totals where
  press : Nat := 0
  hbm : Nat := 0
  cave : Nat := 0
  dsm : Nat := 0
  deriving DecidableEq, Repr

/-- The hub's activity port and the sealed meter (R560 to R574). -/
structure Meter where
  /-- METER_TX and the hub's totals; default all zero. -/
  txSeq : Word := 0
  gen : BitVec 16 := 0
  nent : BitVec 11 := 0
  frames : Nat := 0
  periodFrom : Nat := 0
  totals : Map Totals := []
  /-- Periods since a tenant's totals last changed. -/
  quiet : Map Nat := []
  /-- The module has been in early service during the period. -/
  hubEarly : Bool := false
  /-- Tenants whose press cycles have risen in the period (R560). -/
  ran : List Nat := []
  /-- Memory objects reclaimed in the period (R561). -/
  left : List MemObj := []
  /-- What the meter's state of R571 follows from: the presence contact, a status that the meter has stopped publishing, a
  fault under the seal, and sealed service mode; and the service contact, closed when `contact` (R572). -/
  present : Bool := true
  silent : Bool := false
  fault : Bool := false
  service : Bool := false
  contact : Bool := false
  powered : Bool := true
  tamper : Word := 0
  calVer : Word := 0
  cmdRej : Bool := false
  recNew : Bool := false
  head : Dword := 0
  nonce : Dword := 0
  /-- INTERVAL in seconds, start of the interval in meter ticks and millijoules, energy total. -/
  interval : Nat := 900
  isOpen : Bool := true
  tStart : Nat := 0
  eStart : Nat := 0
  gaps : Nat := 0
  gaps0 : Nat := 0
  /-- Last accepted generation and SEQ, and the number of generations accepted before it. -/
  last : Option (Nat × Nat) := none
  era : Nat := 0
  /-- Last totals per tenant, keyed 1024 * era + tenant, and bases at the interval's start. -/
  acc : Map Totals := []
  base : Map Totals := []
  /-- Eras that reached the interval, EARLY seen, frames accepted, FINAL of the last
  generation seen, FINAL_MISS. -/
  gens : List Nat := []
  early : Bool := false
  got : Nat := 0
  final : Bool := false
  miss : Bool := false
  restarted : Bool := false
  /-- The instant of a power loss: ticks and energy. -/
  lossAt : Option (Nat × Nat) := none
  gain : Dword := 0
  offset : Dword := 0
  exitReq : Bool := false
  calResult : Dword := 0
  /-- Records by SEQ mod 256. -/
  ring : Map Bytes := []
  /-- SEQ of the last record read. -/
  readSeq : Dword := 0
  fw : Bytes := []
  deriving DecidableEq, Repr

/-- An NVMe queue pair of depth 256: the tail of its submission queue and the head of its completion queue (R586). -/
structure NvmePair where
  tail : BitVec 8 := 0
  head : BitVec 8 := 0
  deriving DecidableEq, Repr

/-- A PCIe link (R585 to R587, R594). -/
structure Pcie where
  speed : BitVec 4 := 0
  width : BitVec 3 := 0
  ecrc : Bool := false
  nvme : Bool := false
  mdts : Nat := 0
  /-- Namespaces in service, in ascending NSID order. -/
  ns : List NvmeNs := []
  lerr : Dword := 0
  /-- The admin queue exists, and the I/O queue pairs, one per ladle (R586). -/
  admin : Bool := false
  pairs : List NvmePair := []
  /-- Devices left disabled. -/
  disabled : Nat := 0
  down : Bool := false
  /-- PERST_L is held low (R599). -/
  perstLow : Bool := true
  deriving DecidableEq, Repr

/-- Kinds of RoCEv2 refusal (R30, R296, R577). -/
inductive Nak where
  | access | operational | invalid
  deriving DecidableEq, Repr

/-- What the module sends to the outside. -/
inductive Out where
  /-- Management answer: connection (or none), TYPE and body (R583). -/
  | mgmt (conn : Option Nat) (ty : Nat) (body : Bytes)
  /-- STATUS of a management request. -/
  | status (conn : Option Nat) (st : Status)
  /-- SEND on a queue pair: TYPE and body (R580). -/
  | send (qp ty : Nat) (body : Bytes)
  | cmRep (qp : Nat)
  | cmRej (qp : Nat)
  | cmDrep (qp : Nat)
  | disconnect (ch : Chan)
  | ack (qp : Nat)
  | readData (qp : Nat) (data : Bytes)
  | atomicOld (qp : Nat) (old : Dword)
  | nak (qp : Nat) (k : Nak)
  | cnp (qp dscp : Nat)
  /-- A flit sent on a port: its 256 bytes (R337). -/
  | flit (p : Nat) (bytes : Bytes)
  /-- A TRAIN flit that announces a warm hold on a port (R370). -/
  | warmHold (p : Nat)
  /-- A TRAIN flit of IDENTIFY on a port (R367). -/
  | train (p : Nat) (id : TrainId)
  /-- SMBus data, a refused transfer and the alert line. -/
  | smbus (data : Bytes)
  | smbusNack
  | alert
  /-- JTAG: the register that the TAP shifts out; BYPASS is one zero bit. -/
  | jtag (data : Bytes)
  | frame (data : Bytes)
  | selftest (c : Nat) (pass : Bool)
  | pgood (high : Bool)
  /-- PERST_L of a PCIe link released (R599). -/
  | perst (l : Nat)
  /-- An NVMe Read, or Write with FUA, submitted on a link: NSID, first LBA, number of LBAs and PRP
  entries; data of a Write taken by the drive (R586, R587). -/
  | nvme (l nsid : Nat) (write : Bool) (lba n : Nat) (prps : List Nat)
  | nvmeData (l nsid lba : Nat) (data : Bytes)
  | refused (conn : Nat)
  /-- What a register read returned. -/
  | reg (v : Dword)
  deriving DecidableEq, Repr

/-- A service Ethernet port (R576, R594). -/
structure Eth where
  link : BitVec 2 := 0
  pfcRx : Bool := false
  cnt : Dword := 0
  open_ : Nat := 0
  /-- The tick of the last CNP per queue pair number. -/
  cnps : Map Nat := []
  /-- A pause of the lossless priority: its first tick and its length in ticks; and the packets that wait for its end. -/
  pause : Option (Nat × Nat) := none
  txq : List Out := []
  /-- Default routers learned from router advertisements (R584). -/
  routers : List Bytes := []
  deriving DecidableEq, Repr

/-! ### The module -/

/-- The state of the module. -/
structure State where
  /-- Commands that wait, first in first out. -/
  pending : List Instr := []
  /-- Messages to the outside, oldest first. -/
  out : List Out := []
  /-- The model's own counter of free values drawn (log entry 2). -/
  freeIx : Nat := 0
  /-- REF_CNT (R531, R546). -/
  refCnt : Dword := 0
  /-- Memory by local address (R27); an unlisted byte reads 0. -/
  mem : Map Byte := []
  /-- Poisoned units, by the address of their first byte (R296). -/
  bad : List Nat := []
  /-- Logical cores 64v + c; default: as after a start. -/
  cores : Map Core := []
  /-- VAT_REMAP by logical core, where it differs from c; default the core's own number. -/
  remap : Map Nat := []
  /-- VAT_FAIL bits, as 66 v + physical core (R465). -/
  vatFail : List Nat := []
  /-- Self-tests of released physical cores: logical core, physical core, requester and request (R527). -/
  tests : List (Nat × Nat × Option Nat × SelfTest) := []
  /-- CORE_ISSUE_CNT and CORE_RES_CNT of physical cores that are not bound; default 0 (R184). -/
  physCnt : Map (Dword × Dword) := []
  /-- PRESS_FLT_CNT by physical core 66 v + p; default 0 (R100). -/
  fltCnt : Map Word := []
  /-- DUTY_STAT fallback bits 23:16 and modes 15:0 (R39). -/
  dutyFb : BitVec 8 := 0
  ladles : Map LadleRun := []
  /-- Commands of client queues and the rind that wait for a ladle. -/
  hubLadles : List LadleCmd := []
  ladleOrder : Nat := 0
  /-- The last command that each source has submitted, by its source (R301). -/
  ladleLast : Map Nat := []
  /-- The stamp of the next access that leaves a core (R311). -/
  vatSeq : Nat := 0
  ports : Map Port := []
  fab : Fabric := {}
  hoop : Hoop := {}
  turn : Turn := {}
  obj : Objects := {}
  qw : Regen := {}
  start : Start := {}
  clk : Clocks := {}
  pow : Power := {}
  memCtl : MemCtl := {}
  triage : Triage := {}
  meter : Meter := {}
  /-- The JTAG boundary register, the cell next to TDO first (R588). -/
  bscan : Bytes := List.replicate 161 0
  /-- EXTEST drives the contacts from the boundary register (R590). -/
  extest : Bool := false
  eths : Map Eth := []
  pcies : Map Pcie := []
  deriving DecidableEq, Repr

/-- The module right after a cold start's reset, with 48 V applied and the power-good handshake
complete: STAGE 0, every register at its Reset value, memory with nothing listed (R15, R24, R517). -/
def State.reset : State := {}

end Sys2Proof.Machine
end

