-- ==== Sys2Proof/Machine/Ops.lean ====
section
/-! DEFINITION. The named operations over the state that every family uses: status codes, units,
memory with poison, the turning filter and the stationary tags, free values, messages out and
events to fault triage. -/

namespace Sys2Proof.Machine

/-- The outcome of a command. -/
abbrev Res := Host.Outcome State Fault Refusal

/-- The 16-bit code of a status (R503). -/
def Status.code : Status → Nat
  | .ok => 0x0000 | .alreadyDone => 0x0001 | .selftestDeferred => 0x0002 | .descInvalid => 0x0010
  | .launchInvalid => 0x0011 | .handleInvalid => 0x0012 | .notFound => 0x0013
  | .notPermitted => 0x0014 | .noResource => 0x0015 | .busy => 0x0016 | .configInvalid => 0x0017
  | .modeMismatch => 0x0018 | .earlyService => 0x0019 | .addressFault => 0x0020
  | .alignFault => 0x0021 | .instrFault => 0x0022 | .memPoison => 0x0023 | .pressFault => 0x0024
  | .wheyFault => 0x0025 | .segInvalid => 0x0026 | .unreachable => 0x0030
  | .remoteTimeout => 0x0031 | .residueFault => 0x0032 | .replayed => 0x0033 | .jobHalt => 0x0034
  | .contextLost => 0x0040 | .aborted => 0x0041 | .ownerLost => 0x0042 | .cancelled => 0x0043
  | .depFailed => 0x0044

/-- The status with a code, for the codes that an error response carries (R339, R365). -/
def Status.ofCode (n : Nat) : Status :=
  match n with
  | 0x0010 => .descInvalid | 0x0019 => .earlyService | 0x0020 => .addressFault
  | 0x0023 => .memPoison | 0x0030 => .unreachable | 0x0031 => .remoteTimeout
  | _ => .addressFault

/-- An 8-bit status of an ERROR_RSP (R339: AUX has eight bits). -/
def Status.aux (st : Status) : Nat := st.code % 256

/-- REF_CNT as a number. -/
def now (s : State) : Nat := s.refCnt.toNat

/-- A command that names a unit under `n` runs; any other names a unit that does not exist. -/
def onUnit (n i : Nat) (r : Res) : Res := if i < n then r else .fault .noSuchUnit

/-- Logical cores 0 to 255 (R4, R16). -/
def onCore (c : Nat) (r : Res) : Res := onUnit 256 c r

/-- The logical core c. -/
def coreOf (s : State) (c : Nat) : Core := mget s.cores {} c

/-- The state with core c replaced. -/
def setCore (s : State) (c : Nat) (k : Core) : State := { s with cores := mput s.cores c k }

/-- The state with core c changed by a function. -/
def modCore (s : State) (c : Nat) (f : Core → Core) : State := setCore s c (f (coreOf s c))

/-- Port p. -/
def portOf (s : State) (p : Nat) : Port := mget s.ports {} p

/-- The state with port p replaced. -/
def setPort (s : State) (p : Nat) (q : Port) : State := { s with ports := mput s.ports p q }

/-- A message to the outside. -/
def emit (s : State) (o : Out) : State := { s with out := s.out ++ [o] }

/-- An event of class `n` of R534 raised while an earlier one of its class waits, if `waits` says so: the two merge, and the
overrun flag is set (R533, R546; DESIGN CHOICE, log entry 133). -/
def overrun (s : State) (n : Nat) (waits : Bool) : State :=
  { s with clk := { s.clk with ovr := if waits then s.clk.ovr ||| BitVec.ofNat 4 (2 ^ n) else s.clk.ovr } }

/-- An ATTN event for fault triage (R534, R549). -/
def attn (s : State) (f : FaultInfo) : State :=
  { overrun s 2 (!s.triage.attn.isEmpty) with triage := { s.triage with attn := s.triage.attn ++ [f] } }

/-- Whether rails 1 to 6 are started and in tolerance (R603, R604). -/
def railsUp (s : State) : Bool := s.pow.rise && s.pow.rails == 6

/-- Whether the domains that a PLL feeds have stopped because it lost lock, by CLK_STAT bit (R544). -/
def pllDown (s : State) (n : Nat) : Bool := bitOf s.clk.down.toNat n

/-- A command that an agent of the hub carries out: nothing happens while the hub domain has stopped (R529, R544). -/
def onHub (s : State) (r : Res) : Res := if pllDown s 1 then .next s else r

/-- A command that the rind carries out, which works through the hub (R529, R544). -/
def onRind (s : State) (r : Res) : Res := if pllDown s 1 || pllDown s 3 then .next s else r

/-- The next free value (log entry 2). -/
def freeVal (s : State) : Nat := Config.free s.freeIx

/-- The state after a free value has been drawn. -/
def drawn (s : State) : State := { s with freeIx := s.freeIx + 1 }

/-! ### Address map (R27 to R33) -/

/-- The regions of the local address space. -/
inductive Region where
  | hbm | cave
  | spad (c off : Nat)
  | shared (v : Nat)
  | csr
  | unmapped
  deriving DecidableEq, Repr

/-- Base of the scratchpad window of core c (R28). -/
def spadBase (c : Nat) : Nat := 0x080000000000 + c * 0x2000000

/-- Bytes of a scratchpad (R28). -/
def spadSize : Nat := 0x1800000

/-- The region of a local address (R27, R28). -/
def regionOf (a : Nat) : Region :=
  if a < 0x030000000000 then .hbm
  else if a < 0x040000000000 then .unmapped
  else if a < 0x080000000000 then .cave
  else if a < 0x080200000000 then
    let o := a - 0x080000000000
    if o % 0x2000000 < spadSize then .spad (o / 0x2000000) (o % 0x2000000) else .unmapped
  else if a < 0x0A0000000000 then .unmapped
  else if a < 0x0A0080000000 then .shared ((a - 0x0A0000000000) / 0x20000000)
  else if a < 0x0F0000000000 then .unmapped
  else if a < 0x100000000000 then .csr
  else .unmapped

/-- Whether a byte lies in memory: HBM, cave, scratchpad or die-shared. -/
def isMem (a : Nat) : Bool :=
  match regionOf a with
  | .hbm | .cave | .spad .. | .shared _ => true
  | _ => false

/-- Whether the module is in full service (R519). -/
def fullService (s : State) : Bool := s.start.stage == 4

/-- Whether a byte of memory is in service (R287, R518). -/
def inService (s : State) (a : Nat) : Bool :=
  match regionOf a with
  | .hbm => fullService s || a < 0x00C000000000
  | .cave => fullService s
  | _ => true

/-- What an access of `n` bytes of memory meets: nothing, ADDRESS_FAULT or EARLY_SERVICE (R30, R287).
Every region begins and ends on a 64-byte boundary, so the ends decide for short accesses; a longer
one is tested at its 64-byte blocks. -/
def memCheck (s : State) (a n : Nat) : Option Status :=
  let pts := a :: (List.range (n / 64)).map (fun i => a + 64 * (i + 1)) ++ [a + n - 1]
  let pts := pts.filter fun x => x < a + n
  if pts.any fun x => !isMem x then some .addressFault
  else if pts.any fun x => !inService s x then some .earlyService
  else none

/-- Whether a long region lies wholly in HBM or the cave. -/
def inTiers (a n : Nat) : Bool :=
  (a + n ≤ 0x030000000000) || (0x040000000000 ≤ a && a + n ≤ 0x080000000000)

/-- The own node ID (R336, R372): 0xFFFF while no configuration is in force (R525). -/
def ownNode (s : State) : Nat :=
  match s.start.cfg with
  | none => 0xFFFF
  | some f =>
    let o := f.origin.toNat
    let p := s.pow.pos.toNat
    (fld o 3 0 + fld p 2 2) * 1024 + (fld o 8 4 + fld p 1 1) * 32 + (fld o 13 9 + fld p 0 0)

/-- The physical node of a node ID: its alias where one is in force (R352, R362, R375). -/
def physNode (s : State) (n : Nat) : Nat :=
  match s.fab.aliases.find? fun kv => bitOf kv.2.toNat 31 && fld kv.2.toNat 13 0 == n with
  | some kv => fld kv.2.toNat 29 16
  | none => n

/-- A global address in the form that names the node as written: local addresses as they are, another node's above
`2 ^ 48`, reserved nodes as an unmapped address (R31). -/
def globalKey (s : State) (g : Nat) : Nat :=
  let node := fld g 63 48
  let a := fld g 47 0
  if node = 0xFFFF ∨ node = ownNode s ∨ physNode s node = ownNode s then a
  else if node < 0x4000 then (node + 1) * 2 ^ 48 + a
  else 0x100000000000

/-- A global address in the form of the tracker, which compares the bytes reached: IDs that reach one module give
one address (R174, R362). -/
def reachKey (s : State) (g : Nat) : Nat :=
  let k := globalKey s g
  if k < 2 ^ 48 then k else (physNode s (fld g 63 48) + 1) * 2 ^ 48 + fld g 47 0

/-- Whether a tracker address is local. -/
def isLocal (a : Nat) : Bool := a < 2 ^ 48

/-! ### Bytes of memory -/

/-- A byte of memory; what nothing has written reads 0 (log entry 3, R290). -/
def rdByte (s : State) (a : Nat) : Byte := mget s.mem 0 a

/-- `n` bytes of memory. -/
def rdBytes (s : State) (a n : Nat) : Bytes := (List.range n).map fun i => rdByte s (a + i)

/-- A little-endian number of `n` bytes of memory. -/
def rdNum (s : State) (a n : Nat) : Nat := leVal (rdBytes s a n)

/-- Bytes of the unit of poison at an address (R296). -/
def unitSize (a : Nat) : Nat := match regionOf a with | .cave => 64 | _ => 8

/-- The first poisoned unit that a read of `n` bytes meets (R296). -/
def badAt (s : State) (a n : Nat) : Option Nat :=
  (s.bad.filter fun u => u < a + n && a < u + unitSize u).foldl (fun m u => some (match m with | some x => min x u | none => u)) none

/-- Whether a read of `n` bytes meets poison (R296). -/
def isBad (s : State) (a n : Nat) : Bool := s.bad.any fun u => u < a + n && a < u + unitSize u

/-- Bytes put one after another into a byte table. -/
def putBytes : Map Byte → Nat → Bytes → Map Byte
  | m, _, [] => m
  | m, a, b :: bs => putBytes (mset m 0 a b) (a + 1) bs

/-- Poisoned units that a write of `n` bytes leaves poisoned: those it does not cover (R296). -/
def badAfter (bad : List Nat) (a n : Nat) : List Nat :=
  bad.filter fun u => !(a ≤ u && u + unitSize u ≤ a + n)

/-! ### Stationary tags (R118, R123) -/

/-- Element size of a press format in bits (R109). -/
def pressBits (fmt : Nat) : Nat :=
  match fmt with | 0 => 8 | 1 => 8 | 2 => 16 | 3 => 32 | 4 => 4 | _ => 8

/-- Bytes of a row of `n` elements. -/
def rowBytes (fmt n : Nat) : Nat := ceilDiv (n * pressBits fmt) 8

/-- Bytes from the first to the last byte of `rows` rows (R118). -/
def spanLen (rows stride row : Nat) : Nat := (rows - 1) * stride + row

/-- The scratchpad regions of a tile: data, scales, codebook, each as offset and length. -/
def tagRegions (t : TileTag) : List (Nat × Nat) :=
  [(t.wOff, spanLen t.aRows t.wStride (rowBytes t.wFmt t.aCols))] ++
  (if t.wScaled || t.wFmt = 1 then [(t.sclOff, spanLen t.aRows t.sclStride (ceilDiv t.aCols 32))] else []) ++
  (if t.wFmt = 4 then [(t.cbOff, 16)] else if t.wFmt = 5 then [(t.cbOff, 256)] else [])

/-- Whether a byte range meets one of a list of ranges. -/
def hits (rs : List (Nat × Nat)) (a n : Nat) : Bool := rs.any fun r => r.1 < a + n && a < r.1 + r.2

/-- A core whose tile tag becomes invalid when its scratchpad is written in the tile (R123). -/
def dropTag (k : Core) (off n : Nat) : Core :=
  match k.press.tile with
  | some t => if hits (tagRegions t) off n then { k with press := { k.press with tile := none } } else k
  | none => k

/-- The tag rule applied to a write at a local address. -/
def dropTags (s : State) (a n : Nat) : State :=
  match regionOf a with
  | .spad c off => if (coreOf s c).press.tile.isSome then modCore s c (fun k => dropTag k off n) else s
  | _ => s

/-! ### Turned regions (R426, R429, R434) -/

/-- Bytes of a granule (R426). -/
def granule : Nat := 0x40000

/-- The turning region table: base and length of each region (R426). -/
def turnRegions (s : State) : List (Nat × Nat) :=
  let base := fld s.turn.tblBase.toNat 47 4 * 16
  (List.range (fld s.turn.tblCnt.toNat 8 0)).map fun i =>
    (fld (rdNum s (base + 16 * i) 8) 47 0, fld (rdNum s (base + 16 * i + 8) 8) 47 0)

/-- Granules of the whole table. -/
def granuleCount (rs : List (Nat × Nat)) : Nat := (rs.map fun r => r.2 / granule).sum

/-- Number of the granule that holds an address, counted in table order (R431). -/
def granuleOf : List (Nat × Nat) → Nat → Nat → Option Nat
  | [], _, _ => none
  | r :: rs, k, a =>
    if r.1 ≤ a && a < r.1 + r.2 then some (k + (a - r.1) / granule)
    else granuleOf rs (k + r.2 / granule) a

/-- Address of granule n (R431). -/
def granuleAddr : List (Nat × Nat) → Nat → Option Nat
  | [], _ => none
  | r :: rs, n => if n < r.2 / granule then some (r.1 + n * granule) else granuleAddr rs (n - r.2 / granule)

/-- One address of every granule-sized stretch of a range, and its last one. -/
def stretchPts (a n : Nat) : List Nat := if n = 0 then [] else ((List.range (n / granule + 1)).map fun i => a + granule * i) ++ [a + n - 1]

/-- Granules that a range of `n` bytes meets (R429, R434). -/
def granulesOf (s : State) (a n : Nat) : List Nat :=
  let rs := turnRegions s
  ((stretchPts a n).filter fun x => decide (x < a + n)).filterMap (granuleOf rs 0) |>.eraseDups

/-- Granules marked in both dirty bitmaps (R434, R551). -/
def markDirty (s : State) (gs : List Nat) : State :=
  { s with turn := { s.turn with dirty0 := gs.foldl kput s.turn.dirty0, dirty1 := gs.foldl kput s.turn.dirty1 } }

/-- Granules of a range that the turning in progress has not read yet (R429). -/
def pendingGranules (s : State) (a n : Nat) : List Nat :=
  match s.turn.run with
  | none => []
  | some r => (granulesOf s a n).filter fun g => !r.done.contains g

/-! ### Interleave, and channels that sleep (R279, R281, R283, R544) -/

/-- The mappings in force, laid out as MEM_ILV (R286). -/
def ilvWord (s : State) : Nat := match s.start.cfg with | some f => f.ilv.toNat | none => 0

/-- Stack and stack-local address of an HBM address under a mapping (R279). -/
def hbmPlaceBy (w a : Nat) : Nat × Nat :=
  let v := a / 0xC000000000
  let o := a % 0xC000000000
  match fld w 1 0 with
  | 0 => (6 * v + o / 2 ^ 37, o % 2 ^ 37)
  | m =>
    let g := if m = 1 then 4096 else 256
    (6 * v + o / g % 6, o / (6 * g) * g + o % g)

/-- The HBM address that a mapping gives a place (R279, R523). -/
def hbmAddrBy (w : Nat) (p : Nat × Nat) : Nat :=
  let v := p.1 / 6 * 0xC000000000
  match fld w 1 0 with
  | 0 => v + p.1 % 6 * 2 ^ 37 + p.2
  | m =>
    let g := if m = 1 then 4096 else 256
    v + p.2 / g * (6 * g) + p.1 % 6 * g + p.2 % g

/-- Stack and stack-local address of an HBM address (R279). -/
def hbmPlace (s : State) (a : Nat) : Nat × Nat := hbmPlaceBy (ilvWord s) a

/-- Channel of its stack that an HBM address lies in (R279). -/
def hbmChannel (s : State) (a : Nat) : Nat := (hbmPlace s a).2 / 256 % 32

/-- Bank of its vat that a die-shared address lies in (R291). -/
def sharedBank (a : Nat) : Nat := (a - 0x0A0000000000) % 0x20000000 / 64 % 32

/-- Channel and channel-local address of a cave address under a mapping (R281). -/
def cavePlaceBy (w a : Nat) : Nat × Nat :=
  let o := a - 0x040000000000
  match fld w 5 4 with
  | 0 => (o / 2 ^ 38, o % 2 ^ 38)
  | m =>
    let g := if m = 1 then 4096 else 256
    (o / g % 16, o / (16 * g) * g + o % g)

/-- The cave address that a mapping gives a place (R281, R523). -/
def caveAddrBy (w : Nat) (p : Nat × Nat) : Nat :=
  match fld w 5 4 with
  | 0 => 0x040000000000 + p.1 * 2 ^ 38 + p.2
  | m =>
    let g := if m = 1 then 4096 else 256
    0x040000000000 + p.2 / g * (16 * g) + p.1 * g + p.2 % g

/-- Channel and channel-local address of a cave address (R281). -/
def cavePlace (s : State) (a : Nat) : Nat × Nat := cavePlaceBy (ilvWord s) a

/-- The address under mapping `w'` of the byte that has address `a` under `w` (R523). -/
def movedAddr (w w' a : Nat) : Nat :=
  match regionOf a with
  | .hbm => hbmAddrBy w' (hbmPlaceBy w a)
  | .cave => caveAddrBy w' (cavePlaceBy w a)
  | _ => a

/-- One address of every interleave granule that an access meets: no granule is shorter than 256 bytes (R279, R281). -/
def granulePts (a n : Nat) : List Nat :=
  ((List.range (n / 256 + 1)).map fun i => a + 256 * i) ++ [a + n - 1]

/-- Parked cave channels that an access meets (R283). -/
def parkedMet (s : State) (a n : Nat) : List Nat :=
  ((granulePts a n).filterMap fun x =>
    match regionOf x with
    | .cave =>
      let ch := (cavePlace s x).1
      if bitOf s.memCtl.parked.toNat ch then some ch else none
    | _ => none).eraseDups

/-- Whether an access meets a controller whose PLL has lost lock (R544). -/
def unclocked (s : State) (a n : Nat) : Bool :=
  s.clk.down != 0 &&
    (granulePts a n).any fun x =>
      match regionOf x with
      | .hbm => pllDown s (12 + (hbmPlace s x).1)
      | .cave => pllDown s 1 || pllDown s 2
      | _ => false

/-- Whether an access waits for a parked channel, or for a controller that has stopped. -/
def asleep (s : State) (a n : Nat) : Bool := (s.memCtl.parked != 0 && !(parkedMet s a n).isEmpty) || unclocked s a n

/-- The parked channels of an access asked to wake (R283, R540). -/
def askWake (s : State) (a n : Nat) : State :=
  { s with memCtl := { s.memCtl with
      wakes := (parkedMet s a n).foldl (fun w ch => w ||| BitVec.ofNat 16 (2 ^ ch)) s.memCtl.wakes } }

/-! ### Writes -/

/-- A write performed at its memory: bytes, poison, tile tags and dirty bitmaps. -/
def memPut (s : State) (a : Nat) (bs : Bytes) : State :=
  let s := dropTags s a bs.length
  let s := { s with mem := putBytes s.mem a bs, bad := badAfter s.bad a bs.length }
  if fld s.turn.tblCnt.toNat 8 0 = 0 then s else markDirty s (granulesOf s a bs.length)

/-- The parts of a write that fall in one 64-byte block each, which are written one by one (R307). -/
def writeBlocks (a : Nat) (data : Bytes) : List HeldWrite :=
  let hi (i : Nat) : Nat := min (a + data.length) ((a / 64 + i + 1) * 64)
  let lo (i : Nat) : Nat := max a ((a / 64 + i) * 64)
  ((List.range (ceilDiv (a % 64 + data.length) 64)).filter fun i => decide (lo i < hi i)).map fun i =>
    { addr := lo i, data := sliceB data (lo i - a) (hi i - lo i) }

/-- A number written in `n` bytes. -/
def memPutNum (s : State) (a n v : Nat) : State := memPut s a (leBytes n v)

/-- The scratchpad regions that the descriptors of a core hold (R139). -/
def dField (ws : List Dword) (i hi lo : Nat) : Nat := fld (ws.getD i 0).toNat hi lo

/-- Whether scale bytes go with the streaming operand of a descriptor (R113). -/
def dScaledS (ws : List Dword) : Bool := dField ws 4 25 25 = 1 || dField ws 0 19 16 = 1
def dScaledW (ws : List Dword) : Bool := dField ws 5 25 25 = 1 || dField ws 0 23 20 = 1

/-- Rows and columns of a descriptor, and elements of a streaming row (R108, R112). -/
def dSRows (ws : List Dword) : Nat := dField ws 0 39 32 + 1
def dARows (ws : List Dword) : Nat := dField ws 0 46 40 + 1
def dACols (ws : List Dword) : Nat := dField ws 0 55 48 + 1
def dChed (ws : List Dword) : Bool := dField ws 0 9 9 = 1
def dSLen (ws : List Dword) : Nat := if dChed ws then dACols ws else dARows ws

/-- The stationary tag of a descriptor for a piece (R123). -/
def dTag (ws : List Dword) (piece : Nat) : TileTag :=
  { wOff := dField ws 3 24 0, wStride := dField ws 3 56 32, wFmt := dField ws 0 23 20, piece := piece,
    wScaled := dField ws 5 25 25 = 1, sclOff := dField ws 5 24 0, sclStride := dField ws 5 56 32,
    cbOff := dField ws 6 24 0, aRows := dARows ws, aCols := dACols ws }

/-- The operand regions of a descriptor (R118): streaming data and scales, then the tile's. -/
def dRegions (ws : List Dword) : List (Nat × Nat) :=
  [(dField ws 2 24 0, spanLen (dSRows ws) (dField ws 2 56 32) (rowBytes (dField ws 0 19 16) (dSLen ws)))] ++
  (if dScaledS ws then [(dField ws 4 24 0, spanLen (dSRows ws) (dField ws 4 56 32) (ceilDiv (dSLen ws) 32))] else []) ++
  tagRegions (dTag ws 0)

/-- Block and offset of an address of control and status space (R32). -/
def csrBlock (a : Nat) : Nat := fld a 39 32
def csrOff (a : Nat) : Nat := fld a 31 0

/-- Whether a tracker address lies in control and status space of this module. -/
def isCsr (a : Nat) : Bool := isLocal a && regionOf a == .csr

/-- A group may take a free entry: no group that stalled before it waits for it (R104). -/
def mayTake (stall : List Nat) (g free : Nat) : Bool :=
  match stall.idxOf? g with
  | some i => decide (i < free)
  | none => decide (stall.length < free)

/-- Stores of the core to control and status space that are not performed. -/
def csrPending (k : Core) : List Acc := k.acc.filter fun a => a.csr && a.kind == .store

/-- Submitting stores among lanes: those to the last word of a ladle slot (R302). -/
def submits (ls : List LaneOp) : Nat :=
  (ls.filter fun o => isCsr o.addr && csrBlock o.addr == 0x21 && o.addr % 64 == 56 && csrOff o.addr % 0x1000 < 0xC00).length

/-- Entries of the ladle queue that no submitting store has yet claimed (R303). -/
def ladleRoom (k : Core) : Nat := 16 - (k.ladleQ.length + ((csrPending k).map fun a => submits (a.lanes.filter (·.got.isNone))).sum)

/-- The accepted and not completed descriptors of a core, in acceptance order but for batches. -/
def pressHeld (k : Core) : List PressEntry :=
  (k.press.runs.flatMap fun r => r.members) ++ k.press.queue

/-- Chains accepted and not completed. -/
def wheyHeld (k : Core) : List WheyEntry := (k.whey.runs.map fun r => r.e) ++ k.whey.queue

/-- Culture writes that no earlier chain holds back take effect (R239). -/
def settleCultureN : Nat → Core → Core
  | 0, k => k
  | n + 1, k =>
    match k.whey.writes with
    | [] => k
    | x :: rest =>
      if (wheyHeld k).any fun e => decide (e.n < x.after) then k
      else
        let w := { k.whey with writes := rest }
        settleCultureN n { k with whey := match x.lane with
          | none => { w with seed := x.v }
          | some l => { w with ctr := mset w.ctr 0 l x.v } }

/-- Every culture write that nothing holds back takes effect (R239). -/
def settleCulture (k : Core) : Core := settleCultureN k.whey.writes.length k

/-- Whether a write by another agent at a local address waits under R140. -/
def bankHeld (s : State) (a n : Nat) : Bool :=
  match regionOf a with
  | .spad c off => (pressHeld (coreOf s c)).any fun e => hits (dRegions e.words) off n
  | _ => false

/-- Whether a range meets a tensor that a due regeneration has yet to read: nothing of the next step writes it before
(R256; log entry 108). -/
def srcHeld (s : State) (a n : Nat) : Bool := s.qw.reads.any fun r => decide (r.1 < a + n) && decide (a < r.1 + r.2)

/-- Whether a write at a local address is held: at a bank, at the turning filter, or for a due regeneration. -/
def writeHeld (s : State) (a n : Nat) : Bool := bankHeld s a n || !(pendingGranules s a n).isEmpty || srcHeld s a n

/-- The granules of a held write raised as urgent (R429). -/
def raiseUrgent (s : State) (a n : Nat) : State :=
  match s.turn.run with
  | none => s
  | some r =>
    let gs := (pendingGranules s a n).filter fun g => !r.urgent.contains g
    { s with turn := { s.turn with run := some { r with urgent := r.urgent ++ gs } } }

/-- Whether a held write meets a range. -/
def HeldWrite.meets (h : HeldWrite) (a n : Nat) : Bool := decide (h.addr < a + n) && decide (a < h.addr + h.data.length)

/-- Whether memory does not take a write by another agent now: held, asleep, or behind an earlier held write of the
same bytes (R140, R283, R429). -/
def writeWaits (s : State) (a n : Nat) : Bool := writeHeld s a n || asleep s a n || s.turn.held.any fun h => h.meets a n

/-- A write that waits: its granules raised as urgent and its channels asked to wake (R283, R429). -/
def askRoom (s : State) (a n : Nat) : State := askWake (raiseUrgent s a n) a n

/-- A write by a hub agent: performed, or held and performed later. -/
def memWrite (s : State) (a : Nat) (bs : Bytes) : State :=
  if writeWaits s a bs.length then
    let s := askRoom s a bs.length
    { s with turn := { s.turn with held := s.turn.held ++ [{ addr := a, data := bs }] } }
  else memPut s a bs

/-- A number of `n` bytes written by a hub agent. -/
def memWriteNum (s : State) (a n v : Nat) : State := memWrite s a (leBytes n v)

/-- Held writes performed once nothing holds them, in order (R140, R283, R429). -/
def flushHeld (s : State) : State :=
  s.turn.held.foldl (fun s h => memWrite s h.addr h.data) { s with turn := { s.turn with held := [] } }

/-- The parts of a long write that land with this command, at least one of them; which ones is free (R307). A write of one
part lands whole. -/
def landNow {α : Type} (s : State) (xs : List α) : List α × List α :=
  if xs.length ≤ 1 then (xs, []) else
  let ps := xs.zip (List.range xs.length)
  let m := freeVal s
  if ps.any fun p => m.testBit p.2 then
    ((ps.filter fun p => m.testBit p.2).map (·.1), (ps.filter fun p => !m.testBit p.2).map (·.1))
  else (xs, [])

/-- A write by the hoop engine of more than one 64-byte block, which lands block by block: what does not land now lands at
a tick to come (R307). Blocks with poison land now, so that the engine never meets poison it has written over. -/
def memWriteParts (s : State) (a : Nat) (bs : Bytes) : State :=
  let ps := landNow s (writeBlocks a bs)
  let (now_, later) := (ps.1 ++ ps.2.filter fun w => isBad s w.addr w.data.length, ps.2.filter fun w => !isBad s w.addr w.data.length)
  let s := now_.foldl (fun s w => memWrite s w.addr w.data) (drawn s)
  { s with turn := { s.turn with held := s.turn.held ++ later } }

/-- The bytes of memory as a hub agent sees them that has held writes of its own under way: those writes are applied
in order. -/
def hubBytes (s : State) (a n : Nat) : Bytes :=
  if s.turn.held.isEmpty then rdBytes s a n
  else
    (List.range n).map fun i =>
      s.turn.held.foldl (fun b h => if h.meets (a + i) 1 then h.data.getD (a + i - h.addr) b else b) (rdByte s (a + i))

/-- A number of `n` bytes as a hub agent sees it. -/
def hubNum (s : State) (a n : Nat) : Nat := leVal (hubBytes s a n)

/-! ### Regions moved as a whole -/

/-- The bytes of `len` bytes from `src` put at `dst`, as a table; unlisted bytes are 0. -/
def copyRange (m : Map Byte) (src dst len : Nat) : Map Byte :=
  let part := (m.filter fun kv => src ≤ kv.1 && kv.1 < src + len).map fun kv => (kv.1 - src + dst, kv.2)
  let rest := m.filter fun kv => !(dst ≤ kv.1 && kv.1 < dst + len)
  part.foldl (fun acc kv => mset acc 0 kv.1 kv.2) rest

/-- A table with a range cleared to its default. -/
def clearRange {α : Type} (m : Map α) (a len : Nat) : Map α :=
  m.filter fun kv => !(a ≤ kv.1 && kv.1 < a + len)

/-- A region of memory copied over another one, poison of the destination replaced (R296, R451). -/
def memCopy (s : State) (src dst len : Nat) : State :=
  { s with mem := copyRange s.mem src dst len, bad := badAfter s.bad dst len }

/-! ### Configuration in force -/

/-- The duty word in force (R35, R39). -/
def dutyWord (s : State) : Nat := match s.start.cfg with | some f => f.duty.toNat | none => 0

/-- The mode of a duty function: 0 hardware, 1 assisted, 2 client-assisted (R34, R35). -/
def dutyMode (s : State) (fn : Nat) : Nat := fld (dutyWord s) (2 * fn + 1) (2 * fn)

/-- The deadline of a duty function with client-assisted mode (R38, R514). -/
def dutyDeadline (s : State) (fn : Nat) : Nat :=
  match s.start.cfg with
  | some f => f.deadline.getD (match fn with | 0 => 0 | 3 => 1 | 4 => 2 | _ => 3) 0
  | none => 0

/-- A fallback taken under R38, shown in DUTY_STAT bits 23:16 (R39). -/
def setFallback (s : State) (fn : Nat) : State :=
  { s with dutyFb := s.dutyFb ||| BitVec.ofNat 8 (2 ^ fn) }

/-- Physical core bound to logical core c, as 66 v + p (R18, R465). -/
def physOf (s : State) (c : Nat) : Nat := 66 * (c / 64) + mget s.remap (c % 64) c

end Sys2Proof.Machine
end

