-- ==== Sys2Proof/Machine/Culture.lean ====
section
/-! DEFINITION. The culture of a whey lane (R237): the 16-bit draw at a counter. -/

namespace Sys2Proof.Machine

/-- The four words of a culture block. -/
structure CultWords where
  x0 : Word
  x1 : Word
  x2 : Word
  x3 : Word
  deriving DecidableEq, Repr

/-- One of the four rounds with its constant (R237). -/
def cultRound (w : CultWords) (k : Word) : CultWords :=
  let x0 := w.x0 + w.x1 + k
  let x3 := (w.x3 ^^^ x0).rotateLeft 16
  let x2 := w.x2 + x3
  let x1 := (w.x1 ^^^ x2).rotateLeft 12
  let x0 := x0 + x1
  let x3 := (x3 ^^^ x0).rotateLeft 8
  let x2 := x2 + x3
  let x1 := (x1 ^^^ x2).rotateLeft 7
  { x0 := x0, x1 := x1, x2 := x2, x3 := x3 }

/-- The draw of lane `l` at counter `c` under a seed (R237). -/
def cultDraw (seed : Dword) (l : Nat) (c : Dword) : Nat :=
  let blk := c.toNat / 8
  let w : CultWords :=
    { x0 := BitVec.ofNat 32 seed.toNat, x1 := BitVec.ofNat 32 (seed.toNat >>> 32) ^^^ BitVec.ofNat 32 l,
      x2 := BitVec.ofNat 32 blk, x3 := BitVec.ofNat 32 (blk >>> 32) }
  let w := [0x9E3779B9, 0xD1B54A33, 0x6A5D39E9, 0x27D4EB2F].foldl cultRound w
  let out := w.x0.toNat + w.x1.toNat * 2 ^ 32 + w.x2.toNat * 2 ^ 64 + w.x3.toNat * 2 ^ 96
  (out >>> (16 * (c.toNat % 8))) % 2 ^ 16

/-- The 520 bytes of a culture snapshot: the seed, then the counters of lanes 0 to 63 (R431). -/
def snapBytes (seed : Dword) (ctr : Map Dword) : Bytes :=
  leBytes 8 seed.toNat ++ (List.range 64).flatMap fun l => leBytes 8 (mget ctr 0 l).toNat

/-- The seed and counters that 520 bytes hold. -/
def snapOf (bs : Bytes) : Dword × Map Dword :=
  (BitVec.ofNat 64 (wordAt bs 0),
    (List.range 64).foldl (fun m l => mset m 0 l (BitVec.ofNat 64 (wordAt bs (8 + 8 * l)))) [])

end Sys2Proof.Machine
end

