-- ==== Sys2Proof/Machine/Objects.lean ====
section
/-! DEFINITION. Operations on contexts, queues, memory objects and fences that every family shares:
handles and pools (R469, R470), fence signals (R487), retirement (R480), holds (R496) and the loss of
a context (R498). -/

namespace Sys2Proof.Machine

/-! ### Tables -/

/-- The state with the object tables changed. -/
def modObj (s : State) (f : Objects → Objects) : State := { s with obj := f s.obj }

/-- A context, queue, memory object, fence or session by index. -/
def ctx? (s : State) (i : Nat) : Option Context := mget? s.obj.ctxs i
def queue? (s : State) (i : Nat) : Option Queue := mget? s.obj.queues i
def mem? (s : State) (i : Nat) : Option MemObj := mget? s.obj.mems i
def fence? (s : State) (i : Nat) : Option Fence := mget? s.obj.fences i
def sess? (s : State) (i : Nat) : Option Session := mget? s.obj.sess i

/-- The billing tenant of a session: the index of its client entry (R561). -/
def tenantOf (s : State) (sess : Nat) : Nat := match sess? s sess with | some k => k.client | none => 0

/-- The billing tenant of the context that a core runs. -/
def coreTenant (s : State) (c : Nat) : Option Nat := ((coreOf s c).ctx.bind (ctx? s)).map (·.tenant)

/-- The press of a core works for its tenant in this period (R560). -/
def pressUses (s : State) (c : Nat) : State :=
  match coreTenant s c with
  | some t => { s with meter := { s.meter with ran := kput s.meter.ran t } }
  | none => s

/-- A context, queue, memory object or session changed, where it exists. -/
def modCtx (s : State) (i : Nat) (f : Context → Context) : State :=
  match ctx? s i with
  | some x => modObj s fun o => { o with ctxs := mput o.ctxs i (f x) }
  | none => s
def modQueue (s : State) (i : Nat) (f : Queue → Queue) : State :=
  match queue? s i with
  | some x => modObj s fun o => { o with queues := mput o.queues i (f x) }
  | none => s
def modMem (s : State) (i : Nat) (f : MemObj → MemObj) : State :=
  match mem? s i with
  | some x => modObj s fun o => { o with mems := mput o.mems i (f x) }
  | none => s
def modSess (s : State) (i : Nat) (f : Session → Session) : State :=
  match sess? s i with
  | some x => modObj s fun o => { o with sess := mput o.sess i (f x) }
  | none => s

/-- The 32 bytes of a fence record (R475). -/
def fenceRec (s : State) (i : Nat) (f : Fence) : Bytes :=
  let holders := (s.obj.ctxs.filter fun kv => kv.2.fences.contains i).length
  wordsB [f.value.toNat,
    putFld f.status.code 16 48 + putFld f.firstErr.code 16 32 + putFld f.gen.toNat 8 16 +
      putFld 1 4 12 + putFld f.owner 12 0,
    putFld f.waiters 16 16 + putFld holders 16 0, putFld f.refs 32 0]

/-- Address of a fence record (R489). -/
def fenceAddr (s : State) (i : Nat) : Nat := s.obj.fenceBase.toNat + 32 * i

/-- The fence record in memory brought up to date; a free fence's record reads 0 (R475, R489). -/
def syncFence (s : State) (i : Nat) : State :=
  memWrite s (fenceAddr s i) (match fence? s i with | some f => fenceRec s i f | none => List.replicate 32 0)

/-- A fence changed, its record with it. -/
def modFence (s : State) (i : Nat) (f : Fence → Fence) : State :=
  match fence? s i with
  | some x => syncFence (modObj s fun o => { o with fences := mput o.fences i (f x) }) i
  | none => s

/-! ### Handles and index pools (R469, R470) -/

/-- TYPE of an object kind. -/
def kindTy : ObjKind → Nat
  | .context => 1 | .queue => 2 | .memory => 3 | .fence => 4 | .session => 5

/-- Number of indices of a kind (R469). -/
def kindLimit : ObjKind → Nat
  | .context => 4096 | .queue => 16384 | .memory => 1048576 | .fence => 65536 | .session => 1024

/-- The handle of an index (R469). -/
def handleOf (k : ObjKind) (gen : BitVec 8) (i : Nat) : Nat :=
  putFld (kindTy k) 4 28 + putFld (i / 65536) 4 24 + putFld gen.toNat 8 16 + putFld i 16 0

/-- The index that a handle names. -/
def handleIdx (k : ObjKind) (h : Nat) : Nat :=
  fld h 15 0 + (match k with | .memory => 65536 * fld h 27 24 | _ => 0)

/-- The generation that an allocated index has, if it is allocated. -/
def liveGen (s : State) (k : ObjKind) (i : Nat) : Option (BitVec 8) :=
  match k with
  | .context => (ctx? s i).map (·.gen)
  | .queue => (queue? s i).map (·.gen)
  | .memory => (mem? s i).map (·.gen)
  | .fence => (fence? s i).map (·.gen)
  | .session => (sess? s i).map (·.gen)

/-- The index that a valid handle of a kind names: right TYPE, allocated index, current generation (R471). -/
def resolve (s : State) (k : ObjKind) (h : Nat) : Option Nat :=
  let i := handleIdx k h
  let hiOk := match k with | .memory => true | _ => fld h 27 24 == 0
  if fld h 31 28 == kindTy k && hiOk && liveGen s k i == some (BitVec.ofNat 8 (fld h 23 16)) then some i else none

/-! ### Decisions of the client (R38) -/

/-- The posted fence of a function has been signalled since the post. -/
def postDone (s : State) (fn : Nat) : Bool :=
  match s.obj.posts.find? fun p => p.fn == fn with
  | none => false
  | some p =>
    match (resolve s .fence p.fence.toNat).bind fun i => fence? s i with
    | some f => decide (p.base.toNat < f.value.toNat)
    | none => false

/-- Whether the controlling session is gone, its lease expired (R38, R467). -/
def controllerGone (s : State) : Bool := match s.obj.job with | some j => (sess? s j.2.1).isNone | none => true

/-- The index pool of a kind. -/
def poolOf (o : Objects) : ObjKind → Pool
  | .context => o.ctxPool | .queue => o.queuePool | .memory => o.memPool | .fence => o.fencePool
  | .session => o.sessPool

/-- The tables with the pool of a kind replaced. -/
def setPool (o : Objects) (k : ObjKind) (p : Pool) : Objects :=
  match k with
  | .context => { o with ctxPool := p } | .queue => { o with queuePool := p }
  | .memory => { o with memPool := p } | .fence => { o with fencePool := p }
  | .session => { o with sessPool := p }

/-- The next index of a kind, if one is free: never allocated indices first, lowest first (R470). -/
def nextIdx (s : State) (k : ObjKind) : Option Nat :=
  let p := poolOf s.obj k
  if p.fresh < kindLimit k then some p.fresh else p.free.head?

/-- The generation that the next allocation of an index takes (R470). -/
def nextGen (s : State) (k : ObjKind) (i : Nat) : BitVec 8 := mget (poolOf s.obj k).gens 0 i + 1

/-- The pool after index i has been allocated. -/
def takeIdx (s : State) (k : ObjKind) (i : Nat) : State :=
  let p := poolOf s.obj k
  let p := { p with gens := mput p.gens i (nextGen s k i) }
  modObj s fun o => setPool o k (if p.fresh = i then { p with fresh := i + 1 } else { p with free := p.free.drop 1 })

/-- An index freed: it enters quarantine now (R470). -/
def quarantine (s : State) (k : ObjKind) (i : Nat) : State :=
  let p := poolOf s.obj k
  modObj s fun o => setPool o k { p with quar := p.quar ++ [(i, now s)] }

/-! ### Counters of OBJ_DROP (R504) -/

/-- A saturating field of `w` bits of a 64-bit counter register at place `lo` raised by `n`. -/
def bumpFld (r : Dword) (lo w n : Nat) : Dword :=
  let v := fld r.toNat (lo + w - 1) lo
  BitVec.ofNat 64 (r.toNat - v * 2 ^ lo + satAdd w v n * 2 ^ lo)

/-- A 16-bit saturating field of a 64-bit counter register at place `lo` raised by `n`. -/
def bump16 (r : Dword) (lo n : Nat) : Dword := bumpFld r lo 16 n

/-- OBJ_DROP with a field raised: 48 STALE_DB, 32 OVERRUN, 16 STALE_SIG, 0 FENCE_BACK. -/
def objDrop (s : State) (lo : Nat) : State := modObj s fun o => { o with drop := bump16 o.drop lo 1 }

/-! ### NAKs of the service ports (R577, R594) -/

/-- Service port p changed. -/
def modEth (s : State) (p : Nat) (f : Eth → Eth) : State := { s with eths := mput s.eths p (f (mget s.eths {} p)) }

/-- A queue pair changed, where it is connected. -/
def modQp (s : State) (n : Nat) (f : Qp → Qp) : State :=
  match mget? s.obj.qps n with
  | some x => modObj s fun o => { o with qps := mput o.qps n (f x) }
  | none => s

/-- A packet sent by the service port of a queue pair; it waits while the lossless priority is paused (R576). -/
def transmit (s : State) (n : Nat) (o : Out) : State :=
  if (mget s.eths {} (n / 4096)).pause.isSome then modEth s (n / 4096) fun e => { e with txq := e.txq ++ [o] } else emit s o

/-- A NAK on a queue pair, counted in ETH_CNT; after an invalid request the queue pair is in the error state. -/
def nakQp (s : State) (n : Nat) (k : Nak) : State :=
  let lo := match k with | .access => 32 | _ => 16
  let s := transmit (modEth s (n / 4096) fun e => { e with cnt := bump16 e.cnt lo 1 }) n (.nak n k)
  match k with
  | .invalid => modQp s n fun q => { q with error := true }
  | _ => s

/-! ### Waits and signals (R487, R488) -/

/-- Fields of a queue entry (R477). -/
def eWord (e : Bytes) (off : Nat) : Nat := wordAt e off
def eOpc (e : Bytes) : Nat := fld (eWord e 0) 7 0
def eVer (e : Bytes) : Nat := fld (eWord e 0) 15 8
def eWaitEn (e : Bytes) : Bool := bitOf (eWord e 0) 16
def eStrict (e : Bytes) : Bool := bitOf (eWord e 0) 17
def eAfterPrev (e : Bytes) : Bool := bitOf (eWord e 0) 18
def eNobj (e : Bytes) : Nat := fld (eWord e 0) 35 32
def eWaitFence (e : Bytes) : Nat := fld (eWord e 0x08) 31 0
def eWaitValue (e : Bytes) : Nat := eWord e 0x10
def eSigFence (e : Bytes) : Nat := fld (eWord e 0x18) 31 0
def eSigValue (e : Bytes) : Nat := eWord e 0x20
def eObj (e : Bytes) (i : Nat) : Nat := leVal (sliceB e (0x28 + 4 * i) 4)
def eBody (e : Bytes) (off : Nat) : Nat := wordAt e (0x40 + off)

/-- Whether a command has neither started nor been committed. -/
def Cmd.waiting (c : Cmd) : Bool := !c.started && c.st.isNone

/-- The head command of a queue: the first that waits to start (R481). -/
def headCmd (q : Queue) : Option Cmd := q.cmds.find? Cmd.waiting

/-- A command of a queue changed. -/
def modCmd (s : State) (q seq : Nat) (f : Cmd → Cmd) : State :=
  modQueue s q fun x => { x with cmds := x.cmds.map fun c => if c.seq = seq then f c else c }

/-- A command by queue and sequence number. -/
def cmd? (s : State) (q seq : Nat) : Option Cmd :=
  match queue? s q with
  | some x => x.cmds.find? fun c => c.seq == seq
  | none => none

/-- Wait slots held (R488). -/
def waitSlots (s : State) : Nat :=
  (s.obj.queues.map fun kv => (kv.2.cmds.filter Cmd.slot).length).sum

/-- The wait of a queue's head command looked at: satisfied, or queued on its fence, in a wait slot while one is free
and else held by the rind (R475, R487, R488). -/
def settleWait (s : State) (q : Nat) : State :=
  match queue? s q with
  | none => s
  | some x =>
    match headCmd x with
    | none => s
    | some c =>
      if eWaitEn c.entry && c.sat.isNone then
        let i := handleIdx .fence (eWaitFence c.entry)
        match fence? s i with
        | none => s
        | some f =>
          if f.value.toNat ≥ eWaitValue c.entry then
            let s := if c.waits then modFence s i fun f => { f with waiters := f.waiters - 1 } else s
            modCmd s q c.seq fun c => { c with sat := some f.status, waits := false, slot := false }
          else
            let s := if c.waits then s else modFence s i fun f => { f with waiters := f.waiters + 1 }
            let free := decide (waitSlots s < 256)
            modCmd s q c.seq fun c => { c with waits := true, slot := c.slot || free }
      else s

/-- The waits of every queue looked at. -/
def settleWaits (s : State) : State := s.obj.queues.foldl (fun s kv => settleWait s kv.1) s

/-- A signal of value `v` with a status on the fence that 24 handle bits name (R471, R487). -/
def signalFence (s : State) (h v : Nat) (st : Status) : State :=
  let i := fld h 15 0
  match fence? s i with
  | none => objDrop s 16
  | some f =>
    if f.gen ≠ BitVec.ofNat 8 (fld h 23 16) then objDrop s 16
    else
      let err (f : Fence) : Fence := if st ≠ .ok ∧ f.firstErr = .ok then { f with firstErr := st } else f
      if v > f.value.toNat then
        settleWaits (modFence s i fun f => err { f with value := BitVec.ofNat 64 v, status := st })
      else modFence (objDrop s 0) i err

/-! ### Holds (R496) -/

/-- Contexts that hold a memory object or a fence. -/
def memHolders (s : State) (i : Nat) : List Nat :=
  (s.obj.ctxs.filter fun kv => kv.2.mems.contains i).map Prod.fst
def fenceHolders (s : State) (i : Nat) : List Nat :=
  (s.obj.ctxs.filter fun kv => kv.2.fences.contains i).map Prod.fst

/-- A memory object looked at after a hold or a reference has ended: FREEING, then reclaimed (R496). The hub still charges
it for the period (R561). -/
def settleMem (s : State) (i : Nat) : State :=
  match mem? s i with
  | none => s
  | some m =>
    if (memHolders s i).isEmpty then
      if m.refs = 0 then
        let s := { s with meter := { s.meter with left := s.meter.left ++ [m] } }
        quarantine (modObj s fun o => { o with mems := mdel o.mems i }) .memory i
      else modMem s i fun m => { m with state := 2 }
    else s

/-- A fence looked at after a hold, a wait or a reference has ended (R496). -/
def settleFence (s : State) (i : Nat) : State :=
  match fence? s i with
  | none => s
  | some f =>
    if (fenceHolders s i).isEmpty && f.waiters == 0 && f.refs == 0 then
      quarantine (syncFence (modObj s fun o => { o with fences := mdel o.fences i }) i) .fence i
    else syncFence s i

/-- References of an entry taken (`up`) or given back (R479, R480). -/
def entryRefs (s : State) (e : Bytes) (up : Bool) : State :=
  let ch (n : Nat) : Nat := if up then n + 1 else n - 1
  let s := (((List.range (eNobj e)).map fun i => handleIdx .memory (eObj e i)).eraseDups).foldl
    (fun s j =>
      let s := modMem s j fun m => { m with refs := ch m.refs }
      if up then s else settleMem s j) s
  let fs := (if eWaitEn e then [eWaitFence e] else []) ++ (if eSigFence e ≠ 0 then [eSigFence e] else [])
  ((fs.map (handleIdx .fence)).eraseDups).foldl
    (fun s j =>
      let s := modFence s j fun f => { f with refs := ch f.refs }
      if up then s else settleFence s j) s

/-! ### Retirement (R480) -/

/-- A completion record (R480). -/
def cplRec (seq k : Nat) (st : Status) (result : Nat) : Bytes :=
  wordsB [putFld seq 32 32 + putFld st.code 16 16 + (seq / 2 ^ k + 1) % 2, result]

/-- The holds of a context on memory objects and fences ended (R496). -/
def endHolds (s : State) (i : Nat) : State :=
  match ctx? s i with
  | none => s
  | some k =>
    let s := modCtx s i fun k => { k with mems := [], fences := [], saveObj := none }
    let s := k.mems.foldl (fun s m => settleMem s m) s
    k.fences.foldl (fun s f => settleFence s f) s

/-- A destroyed context freed: what it has come to hold since goes with it, and no core runs it (R496, R501). -/
def freeCtx (s : State) (i : Nat) : State :=
  let s := endHolds s i
  let s := { s with cores := s.cores.map fun kv => (kv.1, if kv.2.ctx = some i then { kv.2 with ctx := none, stopped := kv.2.stopped && kv.2.phase.held.isSome } else kv.2) }
  quarantine (modObj s fun o => { o with ctxs := mdel o.ctxs i }) .context i

/-- A queue that is destroying and has no command left is freed, and its context with it when that
was the last and the context is to be destroyed (R501). -/
def settleQueue (s : State) (q : Nat) : State :=
  match queue? s q with
  | none => s
  | some x =>
    if x.state = 3 && x.cmds.isEmpty then
      let s := quarantine (modObj s fun o => { o with queues := mdel o.queues q }) .queue q
      match x.ctx with
      | none => s
      | some c =>
        match ctx? s c with
        | none => s
        | some k =>
          if k.dying && !(s.obj.queues.any fun kv => kv.2.ctx == some c) then freeCtx s c else s
    else s

/-- Retirement of a committed command: signal, completion record, RI and references (R480). -/
def doRetire (s : State) (q seq : Nat) : State :=
  match queue? s q, cmd? s q seq with
  | some x, some c =>
    let st := c.st.getD .ok
    let s := if eSigFence c.entry ≠ 0 && c.sigOk then signalFence s (fld (eSigFence c.entry) 23 0) (eSigValue c.entry) st else s
    let s := memWrite s (x.cpl + 16 * (x.ri.toNat % 2 ^ x.k)) (cplRec seq x.k st c.result)
    let s := if c.waits then modFence s (handleIdx .fence (eWaitFence c.entry)) fun f => { f with waiters := f.waiters - 1 } else s
    let s := modQueue s q fun x => { x with ri := x.ri + 1, cmds := x.cmds.filter fun d => d.seq ≠ seq }
    let s := if c.refs then entryRefs s c.entry false else s
    settleQueue (settleWaits s) q
  | _, _ => s

/-- A command committed with a status, once (R500). -/
def commit (s : State) (q seq : Nat) (st : Status) (result : Nat := 0) : State :=
  modCmd s q seq fun c => if c.st.isNone then { c with st := some st, result := result } else c

/-- A command committed and retired at once. -/
def finish (s : State) (q seq : Nat) (st : Status) (result : Nat := 0) : State :=
  doRetire (commit s q seq st result) q seq

/-- Whether a core still has press, whey or ladle work of a command. -/
def coreWork (k : Core) (l : Nat × Nat) : Bool :=
  (pressHeld k).any (fun e => e.launch == l) ||
  k.whey.queue.any (fun e => e.launch == l) ||
  (k.whey.runs.any fun r => r.e.launch == l) ||
  k.ladleQ.any (fun c => c.cmd == some l)

/-- Whether no press, whey or ladle work of a command is left (R498, R500). -/
def workEnded (s : State) (q seq : Nat) : Bool :=
  !(s.cores.any fun kv => coreWork kv.2 (q, seq)) &&
  !(s.ladles.any fun kv => kv.2.cmd.cmd == some (q, seq)) &&
  !(s.hubLadles.any fun c => c.cmd == some (q, seq))

/-- Whether work of a command is left that a signal of its end has to wait for: the accesses of its blocks, its press
descriptors, whey chains and ladle commands (R327, R498, R500, log entry 102). -/
def launchBusy (s : State) (q seq : Nat) : Bool :=
  !workEnded s q seq || s.cores.any fun kv => kv.2.acc.any fun a => a.launch == (q, seq)

/-- The groups of some blocks of a core end at the instruction boundary (R179); none of them waits for an entry any more. -/
def haltBlocks (k : Core) (p : Block → Bool) : Core :=
  let slots := (k.blocks.filter fun kv => p kv.2).map Prod.fst
  let gone := (k.groups.filter fun kv => slots.contains kv.2.blk).map Prod.fst
  { k with
    press := { k.press with stall := k.press.stall.filter fun g => !gone.contains g }
    whey := { k.whey with stall := k.whey.stall.filter fun g => !gone.contains g }
    ladleStall := k.ladleStall.filter fun g => !gone.contains g
    groups := k.groups.map fun kv =>
      if slots.contains kv.2.blk then (kv.1, { kv.2 with paths := [], ended := BitVec.allOnes 32, holds := [], rels := [] })
      else kv
    blocks := k.blocks.map fun kv => if p kv.2 then (kv.1, { kv.2 with told := true }) else kv }

/-- One ladle command less of the block in a slot of a core (R153). -/
def lowerLadles (b : Nat) (k : Core) : Core :=
  { k with blocks := k.blocks.map fun kv => if kv.1 = b then (kv.1, { kv.2 with ladles := kv.2.ladles - 1 }) else kv }

/-- A source of ladle commands as a key: a core's slot, or a queue (R301). -/
def ladleSource (src : Nat × Nat) : Nat := 65536 * src.1 + src.2

/-- The last command that a source has submitted. -/
def ladlePrev (s : State) (src : Nat × Nat) : Option Nat := mget? s.ladleLast (ladleSource src)

/-- A command of a source submitted: the order of submission moves on. -/
def ladleSent (s : State) (src : Nat × Nat) : State :=
  { s with ladleLast := mput s.ladleLast (ladleSource src) s.ladleOrder, ladleOrder := s.ladleOrder + 1 }

/-- A program's ladle command ends: the block that sent it has one less, on its core or, where its context has been
switched out, in what the switch saved (R153, R491). -/
def blockLadleEnd (s : State) (c : LadleCmd) : State :=
  match c.core with
  | none => s
  | some (k, b) =>
    if (coreOf s k).ctx = some c.ctx then modCore s k (lowerLadles b)
    else modCtx s c.ctx fun x => { x with saved := x.saved.map fun kv => if kv.1 = k then (kv.1, lowerLadles b kv.2) else kv }

/-- A queued ladle command discarded: its fence is signalled CANCELLED (R300, R303). -/
def cancelLadle (s : State) (c : LadleCmd) (st : Status) : State :=
  let w0 := (c.words.getD 0 0).toNat
  let s := if bitOf w0 13 then
      signalFence s (fld (c.words.getD 6 0).toNat 23 0) (c.words.getD 7 0).toNat st else s
  blockLadleEnd s c

/-- Queued ladle commands that a test names are discarded, and running ones stop at their next block. -/
def cancelLadles (s : State) (p : LadleCmd → Bool) : State :=
  let s := s.cores.foldl
    (fun s kv =>
      let gone := kv.2.ladleQ.filter p
      let s := gone.foldl (fun s c => cancelLadle s c .cancelled) s
      modCore s kv.1 fun k => { k with ladleQ := k.ladleQ.filter fun c => !p c }) s
  let s := { s with hubLadles := s.hubLadles.filter fun c => !p c }
  let stop (kv : Nat × LadleRun) : Nat × LadleRun :=
    if p kv.2.cmd && kv.2.fail.isNone then (kv.1, { kv.2 with fail := some .cancelled }) else kv
  { s with ladles := s.ladles.map stop }

/-- A context's queued press, whey and ladle work is discarded and its groups end on every core
(R141, R179, R247, R303). Whatever has begun counts as running and is finished: a batch that still gathers, with all
of its members, and a descriptor behind the oldest of which only the swap has been done (DESIGN CHOICE, log entry 98). -/
def stopContext (s : State) (i : Nat) : State :=
  let stop (k : Core) : Core :=
    let k := haltBlocks k fun b => b.ctx == i
    settleCulture { k with
      admQ := k.admQ.filter fun b => b.ctx ≠ i
      press := { k.press with
        queue := k.press.queue.filter fun e => e.ctx ≠ i
        shadow := if k.ctx = some i then none else k.press.shadow
        stall := if k.ctx = some i then [] else k.press.stall }
      whey := { k.whey with
        queue := k.whey.queue.filter fun e => e.ctx ≠ i
        stall := if k.ctx = some i then [] else k.whey.stall }
      ladleStall := if k.ctx = some i then [] else k.ladleStall }
  let s := { s with cores := s.cores.map fun kv => (kv.1, stop kv.2) }
  flushHeld (cancelLadles s fun c => c.ctx == i)

/-- Every unretired command of the queues that a test names is committed; those whose work has ended
retire at once (R498, R501, R521). -/
def retireCmds (s : State) (p : Nat → Queue → Bool) (st : Cmd → Status) : State :=
  s.obj.queues.foldl
    (fun s kv =>
      if p kv.1 kv.2 then
        kv.2.cmds.foldl
          (fun s c =>
            let s := commit s kv.1 c.seq (st c)
            if !c.started || !launchBusy s kv.1 c.seq then doRetire s kv.1 c.seq else s) s
      else s) s

/-- Every fence that a context owns is signalled all ones (R498). -/
def blowFences (s : State) (i : Nat) (st : Status) : State :=
  s.obj.fences.foldl
    (fun s kv => if kv.2.owner = i then signalFence s (putFld kv.2.gen.toNat 8 16 + kv.1) (2 ^ 64 - 1) st else s) s

/-- The loss of a context: its record, the stop, its commands and its fences, in this order (R498).
`core` is the core of the fault and `cmd` the command that faulted. -/
def loseContext (s : State) (i : Nat) (st : Status) (core : Option Nat) (cmd : Option (Nat × Nat)) : State :=
  match ctx? s i with
  | none => s
  | some x =>
    if x.state ≠ 1 then s
    else
      let qh := match cmd with
        | some l => (match queue? s l.1 with | some q => handleOf .queue q.gen l.1 | none => 0)
        | none => 0
      let s := modCtx s i fun x =>
        { x with state := 2, loss := st, lossCore := BitVec.ofNat 16 (core.getD 0xFFFF),
                 lossQueue := BitVec.ofNat 32 qh, lossSeq := BitVec.ofNat 32 (match cmd with | some l => l.2 | none => 0) }
      let s := stopContext s i
      let s := match cmd with
        | some l =>
          let s := commit s l.1 l.2 st
          if launchBusy s l.1 l.2 then s else doRetire s l.1 l.2
        | none => s
      let other := if st = .ownerLost then Status.cancelled else .contextLost
      let s := retireCmds s (fun _ q => q.ctx == some i) fun _ => other
      blowFences s i (if st = .ownerLost then .ownerLost else .contextLost)

/-- A fault of the work of a launch, which keeps the first one (R483). -/
def launchFault (s : State) (launch : Nat × Nat) (st : Status) : State :=
  modCmd s launch.1 launch.2 fun m => if m.fault.isNone then { m with fault := some st } else m

/-- The state after a fault of a program, press or whey unit on a core (R30, R210, R503). -/
def programFault (s : State) (c ctx : Nat) (launch : Nat × Nat) (st : Status) : State :=
  loseContext (launchFault s launch st) ctx st (some c) (some launch)

/-- Whether nothing that has issued on a core is under way: its accesses, press descriptors, chains and register writes, all
of which a stop lets complete (R138, R141, R179). -/
def settled (k : Core) : Bool :=
  k.acc.isEmpty && k.press.runs.isEmpty && k.press.writes.isEmpty && k.whey.runs.isEmpty && k.whey.writes.isEmpty

/-! ### Poison met (R296, R549, R551) -/

/-- Unit and source of an event in HBM or the cave: stack or channel, home vat or cave (R554, R557). -/
def tierOf (s : State) (a : Nat) : MemTier × Nat × Nat :=
  match regionOf a with
  | .cave => (.cave, (cavePlace s a).1, 0x22)
  | .hbm => (.hbm, (hbmPlace s a).1, 1 + a / 0xC000000000)
  | .spad c _ => (.sram, c, 1 + c / 64)
  | .shared v => (.sram, 256 + v, 1 + v)
  | _ => (.fabric, 0, 0)

/-- The first poisoned unit that some reads meet. -/
def firstBad (s : State) (xs : List (Nat × Nat)) : Option Nat := xs.findSome? fun x => badAt s x.1 x.2

/-- DETAIL0 of an event whose poison lies at no address of memory. -/
def noAddr : Dword := BitVec.allOnes 64

/-- MEM_UE raised by a consumer that meets poison: at an address, or in a memory of core c that has none (R549). -/
def poisonMet (s : State) (u : Option Nat) (c : Nat) (ctx : Option Nat) : State :=
  match u with
  | some a =>
    let t := tierOf s a
    attn s { cls := 2, source := t.2.2, tier := t.1, unit := t.2.1, d0 := BitVec.ofNat 64 a, met := true, consumer := ctx }
  | none => attn s { cls := 2, source := 1 + c / 64, tier := .sram, unit := c, d0 := noAddr, met := true, consumer := ctx }

/-- The event with which a status of an instruction comes: MEM_POISON where it has read some bytes (R549). -/
def statusMet (s : State) (st : Status) (xs : List (Nat × Nat)) (c : Nat) (ctx : Option Nat) : State :=
  if st = .memPoison then poisonMet s (firstBad s xs) c ctx else s

/-! ### The job (R421, R486) -/

/-- Whether a context runs in the module's job. -/
def isJobCtx (s : State) (i : Nat) : Bool :=
  match s.obj.job, ctx? s i with
  | some j, some x => x.job.toNat == j.1
  | _, _ => false

/-- The job step: the step of the latest FORWARD mark performed on any core (R385). -/
def jobStep (s : State) : Nat :=
  s.cores.foldl (fun m kv => max m (kv.2.phase.fwd.getD 0)) 0

end Sys2Proof.Machine
end

