-- ==== Sys2Proof/Machine/Faults.lean ====
section
/-! DEFINITION. The fault log in rind memory (R556, R557) and the counts of the sliding windows of R554. -/

namespace Sys2Proof.Machine

/-- The triage state changed. -/
def modTriage (s : State) (f : Triage → Triage) : State := { s with triage := f s.triage }

/-- Reference ticks of an hour (R554). -/
def hourTicks : Nat := 360000000000

/-- A record put in the log, of which the latest 4,096 are kept; TRIAGE_STAT names it (R556, R557, R559). ACTION:
0 count, 1 record, 2 replay, 3 remap, 4 retrain, 5 warm start, 6 unfit. -/
def addRecord (s : State) (cls source action : Nat) (d0 d1 d2 : Dword) : State :=
  let r : FaultRec :=
    { tick := now s, cls := cls, source := source, action := action, seq := s.triage.seq, step := jobStep s,
      epoch := s.fab.epoch.toNat, d0 := d0.toNat, d1 := d1.toNat, d2 := d2.toNat }
  let log := s.triage.log ++ [r]
  modTriage s fun t =>
    { t with
      log := log.drop (log.length - 4096)
      seq := (t.seq + 1) % 2 ^ 32
      lastClass := BitVec.ofNat 8 cls
      lastAct := BitVec.ofNat 3 action }

/-- Key of a count of R554: kind 1 corrections and 2 mismatches of a physical core, 3 corrected words of a stack
or channel, 4 RETRY and 5 link faults of a port, 6 arrival failures of a neighbour. -/
def countKey (kind unit : Nat) : Nat := kind * 2 ^ 32 + unit

/-- `n` events counted in the window of an hour; at the threshold the count restarts, which the Bool says (R554). -/
def tally (s : State) (key n limit : Nat) : State × Bool :=
  let es := ((mget s.triage.counts [] key).filter fun e => subMod 64 (now s) e.1 < hourTicks) ++ [(now s, n)]
  let above := decide (limit ≤ (es.map Prod.snd).sum)
  (modTriage s fun t => { t with counts := if above then mdel t.counts key else mput t.counts key es }, above)

end Sys2Proof.Machine
end

