-- ==== Sys2Proof/Machine/Hash.lean ====
section
/-! DEFINITION. CRC-32C (R341) and SHA-256 (R507 to R526; the function itself is FIPS 180-4, which
the manual names as a published standard: PRESUMED, log entry 6). -/

namespace Sys2Proof.Machine

/-- One bit of the reflected CRC-32C. -/
def crcStep (c : Nat) : Nat := if c % 2 = 1 then (c / 2) ^^^ 0x82F63B78 else c / 2

/-- Eight bits of it. -/
def crcByte (c : Nat) (b : Byte) : Nat :=
  crcStep (crcStep (crcStep (crcStep (crcStep (crcStep (crcStep (crcStep (c ^^^ b.toNat))))))))

/-- CRC-32C: polynomial 0x1EDC6F41, initial value and final XOR all ones, reflected (R341). -/
def crc32c (bs : Bytes) : Nat := (bs.foldl crcByte 0xFFFFFFFF) ^^^ 0xFFFFFFFF

/-- The primes that SHA-256 takes its constants from: the 64 below 312, each without a smaller prime factor. -/
def shaPrimes : List Nat :=
  let small := [2, 3, 5, 7, 11, 13, 17]
  (List.range' 2 310).filter fun n => small.all fun p => n % p != 0 || n == p

/-- The largest number of `n` more bits, from `r` on, whose e-th power does not pass `x`. -/
def rootBits (e x : Nat) : Nat → Nat → Nat
  | 0, r => r
  | n + 1, r => let up := r + 2 ^ n; rootBits e x n (if up ^ e ≤ x then up else r)

/-- The first 32 bits of the fractional part of the e-th root of `p`: the root of `p * 2 ^ (32 * e)` mod 2 ^ 32. -/
def rootWord (e p : Nat) : Word := BitVec.ofNat 32 (rootBits e (p * 2 ^ (32 * e)) 37 0)

/-- The round constants: the cube roots of the 64 primes. -/
def shaK : List Word := shaPrimes.map (rootWord 3)

/-- The initial hash value: the square roots of the first eight. -/
def shaInit : List Word := (shaPrimes.take 8).map (rootWord 2)

/-- Three rotations of a word, added without carry. -/
def spin (x : Word) (i j k : Nat) : Word := x.rotateRight i ^^^ (x.rotateRight j ^^^ x.rotateRight k)

/-- Two rotations and a shift of a word, added without carry. -/
def smear (x : Word) (i j k : Nat) : Word := (x >>> k) ^^^ (x.rotateRight i ^^^ x.rotateRight j)

/-- The next word of the message schedule, from the sixteen words before it. -/
def shaNext (w : List Word) : Word :=
  [w.getD 0 0, smear (w.getD 1 0) 7 18 3, w.getD 9 0, smear (w.getD 14 0) 17 19 10].sum

/-- One round: the eight working words move one place, and two of them take the sums. -/
def shaRound (h : List Word) (k w : Word) : List Word :=
  let at_ (i : Nat) : Word := h.getD i 0
  let pick := at_ 6 ^^^ (at_ 4 &&& (at_ 5 ^^^ at_ 6))
  let most := (at_ 0 &&& at_ 1) ||| (at_ 2 &&& (at_ 0 ||| at_ 1))
  let low := [at_ 7, spin (at_ 4) 6 11 25, pick, k, w].sum
  (low + spin (at_ 0) 2 13 22 + most) :: h.take 3 ++ (at_ 3 + low) :: (h.drop 4).take 3

/-- The rounds over the constants, sliding the sixteen-word window of the schedule. -/
def shaRounds : List Word → List Word → List Word → List Word
  | [], _, h => h
  | k :: ks, w, h => shaRounds ks (w.drop 1 ++ [shaNext w]) (shaRound h k (w.getD 0 0))

/-- A big-endian word of a block. -/
def shaWord (bs : Bytes) (i : Nat) : Word :=
  bs.getD i 0 ++ bs.getD (i + 1) 0 ++ bs.getD (i + 2) 0 ++ bs.getD (i + 3) 0

/-- The compression of `n` blocks of 64 bytes. -/
def shaBlocks : Nat → Bytes → List Word → List Word
  | 0, _, h => h
  | n + 1, bs, h =>
    let w := (List.range 16).map fun i => shaWord bs (4 * i)
    shaBlocks n (bs.drop 64) ((h.zip (shaRounds shaK w h)).map fun p => p.1 + p.2)

/-- SHA-256 of a message. -/
def sha256 (bs : Bytes) : Bytes :=
  let len := bs.length
  let zeros := (119 - len % 64) % 64
  let msg := bs ++ [0x80] ++ List.replicate zeros 0 ++ (leBytes 8 (8 * len)).reverse
  (shaBlocks (msg.length / 64) msg shaInit).flatMap fun w => (leBytes 4 w.toNat).reverse

end Sys2Proof.Machine
end

