-- ==== Sys2Proof/Machine/Fabric.lean ====
section
/-! DEFINITION. Ruong: flits and packets (R337 to R341), routes and detours (R352, R353, R358 to R362),
virtual channels and egress (R342 to R351), and the injection of requests and responses (R340, R365,
R366). -/

namespace Sys2Proof.Machine

/-! ### Flits and packets -/

/-- The header words of a packet (R339). -/
def headerB (k : Packet) : Bytes :=
  wordsB [
    putFld k.dst 16 48 + putFld k.src 16 32 + putFld k.job 16 16 + putFld k.opc 6 10 + putFld k.tc 2 8 +
      putBit k.rel 7 + putBit k.stripe 6 + putFld k.hops 6 0,
    putFld k.tag 16 48 + putFld k.addr 48 0,
    putFld k.dtr0 16 48 + putFld k.dtr1 16 32 + putFld k.len 8 24 + putFld k.aux 8 16 + putFld k.agent 12 4]

/-- The packet in the bytes of a flit (R337, R339). -/
def packetOf (f : Bytes) : Packet :=
  let a := wordAt f 8
  let b := wordAt f 16
  let c := wordAt f 24
  { dst := fld a 63 48, src := fld a 47 32, job := fld a 31 16, opc := fld a 15 10, tc := fld a 9 8,
    rel := bitOf a 7, stripe := bitOf a 6, hops := fld a 5 0, tag := fld b 63 48, addr := fld b 47 0,
    dtr0 := fld c 63 48, dtr1 := fld c 47 32, len := fld c 31 24, aux := fld c 23 16, agent := fld c 15 4,
    body := sliceB f 32 216 }

/-- The 256 bytes of a flit with a link word and a packet (R337, R341). -/
def flitB (link : Nat) (k : Packet) : Bytes :=
  let f := leBytes 8 link ++ headerB k ++ padB 216 k.body ++ List.replicate 4 0
  f ++ leBytes 4 (crc32c f)

/-- The link word of R338 of the next flit on a port. -/
def linkWord (q : Port) (seq kind vc : Nat) (orig : Option (Nat × Nat)) : Nat :=
  let cr := (q.owed.find? fun kv => decide (kv.2 ≠ 0)).getD (0, 0)
  putFld (subMod 12 q.rxSeq 1) 12 52 + putBit true 51 + putBit q.nak 50 + putFld seq 12 38 + putFld kind 4 34 +
    putFld vc 5 29 + putFld cr.1 5 24 + putFld (min cr.2 63) 6 18 +
    (match orig with | some o => putFld o.2 12 6 + putFld o.1 4 2 | none => 0)

/-- The port once a flit has carried its NAK and the credits of one virtual channel (R343, R345). -/
def portSent (q : Port) : Port :=
  let owed := match q.owed.find? fun kv => decide (kv.2 ≠ 0) with
    | some kv => mset q.owed 0 kv.1 (kv.2 - min kv.2 63)
    | none => q.owed
  { q with nak := false, owed := owed }

/-- An IDLE flit on a port: acknowledgements and credits (R338). -/
def sendIdle (s : State) (p : Nat) : State :=
  let q := portOf s p
  emit (setPort s p (portSent q)) (.flit p (flitB (linkWord q 0 0 0 none) { dst := 0, src := 0, job := 0, opc := 0, tc := 0 }))

/-! ### The torus (R333, R336) -/

/-- Ring size in a dimension: 0 X, 1 Y, 2 Z. -/
def ringSize (s : State) (d : Nat) : Nat :=
  let t := match s.start.cfg with | some f => f.torus.toNat | none => 0
  match d with | 0 => fld t 13 9 + 1 | 1 => fld t 8 4 + 1 | _ => fld t 3 0 + 1

/-- Coordinate of a node in a dimension (R336). -/
def coordOf (n d : Nat) : Nat := match d with | 0 => n % 32 | 1 => n / 32 % 32 | _ => n / 1024

/-- The node with one coordinate replaced. -/
def withCoord (n d v : Nat) : Nat :=
  match d with
  | 0 => n - n % 32 + v
  | 1 => n - 32 * (n / 32 % 32) + 32 * v
  | _ => n % 1024 + 1024 * v

/-- Whether a node lies in the torus. -/
def inTorus (s : State) (n : Nat) : Bool := (List.range 3).all fun d => decide (coordOf n d < ringSize s d)

/-- The neighbour of a node in a dimension, in the - direction when `neg`. -/
def stepNode (s : State) (n d : Nat) (neg : Bool) : Nat :=
  let r := ringSize s d
  withCoord n d ((coordOf n d + (if neg then r - 1 else 1)) % r)

/-- Whether the shorter way to `dst` in a dimension is the - direction; a tie goes + (R352). -/
def goesNeg (s : State) (n dst d : Nat) : Bool :=
  let r := ringSize s d
  let delta := (coordOf dst d + r - coordOf n d) % r
  decide (r / 2 < delta)

/-- The dimension of the next hop under dimension order; none at the destination (R352). -/
def nextDim (n dst : Nat) : Option Nat := (List.range 3).find? fun d => coordOf n d != coordOf dst d

/-- Direction code of R375: 2 * dimension, plus 1 for -. Its ports are 2 * code and 2 * code + 1 (R333). -/
def dirCode (d : Nat) (neg : Bool) : Nat := 2 * d + neg.toNat

/-- Whether a node is dead in the fault map (R375). -/
def nodeDead (s : State) (n : Nat) : Bool := bitOf (mget s.fab.fmap 0 n).toNat 7

/-- Whether the link of a node in a direction is dead. -/
def linkDead (s : State) (n d : Nat) (neg : Bool) : Bool := bitOf (mget s.fab.fmap 0 n).toNat (dirCode d neg)

/-! ### Detours (R358 to R361) -/

/-- A detour descriptor (R358). -/
def detourWord (d sdim : Nat) (sig : Bool) (at_ len ph : Nat) : Nat :=
  putBit true 15 + putFld d 2 13 + putFld sdim 2 11 + putBit sig 10 + putFld at_ 5 5 + putFld len 3 2 + putFld ph 2 0

/-- The node c of R359 and the number of hops to it, from node `n` beyond a blocked hop. -/
def detourEnd (s : State) (dst d : Nat) (neg : Bool) : Nat → Nat → Nat → Nat × Nat
  | 0, n, l => (n, l)
  | fuel + 1, n, l =>
    if !nodeDead s n || coordOf n d == coordOf dst d then (n, l)
    else detourEnd s dst d neg fuel (stepNode s n d neg) (l + 1)

/-- Whether every node and link of a side line is live (R359). -/
def sideLive (s : State) (d sdim : Nat) (neg sig : Bool) : Nat → Nat → Bool
  | 0, n => !nodeDead s n && !linkDead s n sdim (!sig)
  | l + 1, n => !nodeDead s n && !linkDead s n d neg && sideLive s d sdim neg sig l (stepNode s n d neg)

/-- The first usable candidate of R359 for a blocked hop at node `a`. -/
def detourAt (s : State) (a d : Nat) (neg : Bool) (l : Nat) : Option Nat :=
  [((d + 1) % 3, false), ((d + 1) % 3, true), ((d + 2) % 3, false), ((d + 2) % 3, true)].findSome? fun c =>
    if !linkDead s a c.1 c.2 && sideLive s d c.1 neg c.2 l (stepNode s a c.1 c.2) then
      some (detourWord d c.1 c.2 (coordOf a d) l 0)
    else none

/-- The descriptors of the path from node `n` to `dst` (R359); none when the source sends no packet (R360). -/
def detours (s : State) (dst : Nat) : Nat → Nat → List Nat → Option (List Nat)
  | 0, _, acc => some acc
  | fuel + 1, n, acc =>
    match nextDim n dst with
    | none => some acc
    | some d =>
      let neg := goesNeg s n dst d
      let b := stepNode s n d neg
      if !linkDead s n d neg && !nodeDead s b then detours s dst fuel b acc
      else if acc.length = 2 then none
      else
        let e := detourEnd s dst d neg 64 b 1
        if 7 < e.2 then none
        else match detourAt s n d neg e.2 with
          | some w => detours s dst fuel e.1 (acc ++ [w])
          | none => none

/-- Descriptors of a destination as the route unit or the cache gives them (R364); none: UNREACHABLE. -/
def routeOf (s : State) (dst : Nat) : Option (Nat × Nat) :=
  let phys := physNode s dst
  if !inTorus s phys || nodeDead s phys then none
  else if dutyMode s 3 = 0 then
    (detours s phys 128 (ownNode s) []).map fun ws => (ws.getD 0 0, ws.getD 1 0)
  else
    let e := (mget s.fab.rcache 0 phys).toNat
    if e ≠ 0 then some (fld e 31 16, fld e 15 0)
    else (detours s phys 128 (ownNode s) []).map fun _ => (0, 0)

/-- One hop of a packet at this module: dimension, direction, whether it is a side step of a detour, and
the packet with its descriptors brought up to date (R361); none where it is at home. -/
def hopOf (s : State) (k : Packet) : Option (Nat × Bool × Bool × Packet) :=
  let own := ownNode s
  let dst := physNode s k.dst
  let plain := (nextDim own dst).map fun d => (d, goesNeg s own dst d, false, k)
  let pend (w : Nat) : Bool := bitOf w 15 && fld w 1 0 != 2
  let first := pend k.dtr0
  let w := if first then k.dtr0 else k.dtr1
  let put (v : Nat) : Packet := if first then { k with dtr0 := v } else { k with dtr1 := v }
  if !pend w then plain
  else
    let d := fld w 14 13
    let sdim := fld w 12 11
    let sig := bitOf w 10
    let at_ := fld w 9 5
    let len := fld w 4 2
    if fld w 1 0 = 0 then
      if nextDim own dst == some d && coordOf own d == at_ then
        some (sdim, sig, true, put (detourWord d sdim sig at_ len 1))
      else plain
    else if fld w 1 0 = 3 then plain
    else if 0 < len then some (d, goesNeg s own dst d, false, put (detourWord d sdim sig at_ (len - 1) 1))
    else some (sdim, !sig, true, put (detourWord d sdim sig at_ 0 2))

/-- Whether a detour of the packet has begun (R347). -/
def detoured (k : Packet) : Bool :=
  let on (w : Nat) : Bool := bitOf w 15 && fld w 1 0 != 0
  on k.dtr0 || on k.dtr1

/-- Whether the hop by which a packet with a done detour `w` arrived in its side dimension S was the step back: dimension
order never moves it in S after D where S comes before D, and otherwise it stands at the source's coordinate in S only
before it has moved in S (R353, R361). -/
def cameBack (s : State) (k : Packet) (w : Nat) : Bool :=
  decide (fld w 12 11 < fld w 14 13) || coordOf (ownNode s) (fld w 12 11) == coordOf k.src (fld w 12 11)

/-- The dimension in which dimension order, or the side line of a detour in its place, last moved the packet; 3 where
that is a dimension before the one that is blocked at the first hop in it (R353). -/
def lastDim (s : State) (k : Packet) (inDim : Nat) : Nat :=
  let on (w : Nat) : Bool := bitOf w 15 && fld w 1 0 != 0
  let w := if on k.dtr1 then k.dtr1 else k.dtr0
  let d := fld w 14 13
  if !on w then inDim
  else if fld w 1 0 = 1 then
    if coordOf (ownNode s) d = fld w 9 5 && fld w 9 5 = coordOf k.src d then 3 else d
  else if fld w 12 11 = inDim && cameBack s k w then d
  else inDim

/-- DL of the next hop (R353). `came` is the arrival: its dimension and DL; none at the source. -/
def dlNext (s : State) (k : Packet) (came : Option (Nat × Bool)) (d : Nat) (neg : Bool) (side : Bool) : Bool :=
  let c := coordOf (ownNode s) d
  let cross := if neg then c == 0 else c + 1 == ringSize s d
  match came with
  | none => !side && cross
  | some a => if side then a.2 else if lastDim s k a.1 = d then a.2 || cross else cross

/-- Whether a packet is a response (R347). -/
def isRsp (opc : Nat) : Bool := opc == 3 || opc == 5 || opc == 6 || opc == 7

/-- The VC of R347. -/
def vcOf (k : Packet) (dl : Bool) : Nat := 8 * k.tc + 4 * (isRsp k.opc).toNat + 2 * (detoured k).toNat + dl.toNat

/-! ### Sending -/

/-- The index h of R350 within a pair. -/
def pairBit (k : Packet) : Nat :=
  if k.tc = 3 then k.stripe.toNat else popCount 16 (k.src ^^^ k.dst ^^^ k.tc) % 2

/-- Whether a port is ACTIVE (R377). -/
def portActive (s : State) (p : Nat) : Bool := (portOf s p).state == 5

/-- The port of a direction by which a packet leaves; none when the direction is dead (R350, R351). -/
def egressPort (s : State) (dir : Nat) (k : Packet) : Option Nat :=
  let p := 2 * dir + pairBit k
  let q := 2 * dir + (1 - pairBit k)
  if portActive s p && !(portOf s p).diverted then some p
  else if portActive s q then some q
  else if portActive s p then some p else none

/-- The first flit of a class that has a credit, responses before requests (R345, R349). -/
def sendable (q : Port) (tc : Nat) : Option TxFlit :=
  let ok (t : TxFlit) : Bool :=
    t.pkt.tc == tc && decide (mget q.spent 0 t.vc < 32) &&
      (match q.txq.find? fun u => u.vc == t.vc with | some u => u == t | none => false)
  match q.txq.find? fun t => ok t && isRsp t.pkt.opc with
  | some t => some t
  | none => q.txq.find? ok

/-- The flit slots of a round (R349, R373): reduction, data, checkpoint. -/
def roundShares (s : State) : List Nat :=
  [fld s.fab.arb.toNat 23 16, fld s.fab.arb.toNat 15 8, fld s.fab.arb.toNat 7 0]

/-- The class that takes the next flit slot and the shares after it: control first, else the first class
with a flit and a share left, a new round when none has one (R349). -/
def pickFlit (s : State) (q : Port) : Option (TxFlit × List Nat) :=
  match sendable q 2 with
  | some t => some (t, q.share)
  | none =>
    let try_ (sh : List Nat) : Option (TxFlit × List Nat) :=
      [(0, 3), (1, 0), (2, 1)].findSome? fun x =>
        if 0 < sh.getD x.1 0 then (sendable q x.2).map fun t => (t, lset sh x.1 (sh.getD x.1 0 - 1)) else none
    match try_ q.share with
    | some r => some r
    | none => try_ (roundShares s)

/-- A packet flit sent: it takes the next SEQ, a credit and a place in the retry buffer (R342, R345). -/
def sendFlit (s : State) (p : Nat) (t : TxFlit) (share : List Nat) : State :=
  let q := portOf s p
  let t' := { t with seq := q.txSeq }
  let kind := if t.orig.isSome then 2 else 1
  let q' := portSent { q with
    txq := q.txq.erase t, txSeq := (q.txSeq + 1) % 4096, retry := q.retry ++ [t'], share := share,
    spent := mset q.spent 0 t.vc (mget q.spent 0 t.vc + 1) }
  emit (setPort s p q') (.flit p (flitB (linkWord q q.txSeq kind t.vc t.orig) t.pkt))

/-- Every flit that a port can send now (R342, R345, R349). -/
def pumpN : Nat → State → Nat → State
  | 0, s, _ => s
  | n + 1, s, p =>
    let q := portOf s p
    if q.state ≠ 5 || 1024 ≤ q.retry.length then s
    else match pickFlit s q with
      | some r => pumpN n (sendFlit s p r.1 r.2) p
      | none => s

def pump (s : State) (p : Nat) : State := pumpN (portOf s p).txq.length s p

/-! ### Failure of a request (R365) -/

/-- A tracked access with a change; none where it has ended. -/
def modAcc (s : State) (c n : Nat) (f : Acc → Acc) : State :=
  modCore s c fun k => { k with acc := k.acc.map fun a => if a.n = n then f a else a }

/-- TURN_STAT bits: MIRROR_FAIL, MIRROR_OK, HELD, BAD_MARK (R462). -/
def turnFlag (s : State) (n : Nat) : State := { s with turn := { s.turn with stat := s.turn.stat ||| BitVec.ofNat 64 (2 ^ n) } }
def turnClear (s : State) (n : Nat) : State := { s with turn := { s.turn with stat := s.turn.stat &&& ~~~BitVec.ofNat 64 (2 ^ n) } }

/-- A mirror write of the turning copy `id` has ended, with or without failure (R435, R436). -/
def mirrorEnd (s : State) (id : Nat) (failed : Bool) : State :=
  match s.turn.run with
  | some r =>
    if r.id = id then
      let s := if failed then turnFlag s 13 else s
      { s with turn := { s.turn with run := some { r with due := r.due - 1, mfail := r.mfail || failed } } }
    else mirrorLate s
  | none => mirrorLate s
where
  /-- The turning itself is complete and only its mirror is due. -/
  mirrorLate (s : State) : State :=
    if !s.turn.mirror.any fun m => m.id == id then s
    else if failed then turnFlag { s with turn := { s.turn with mirror := s.turn.mirror.filter fun m => m.id ≠ id } } 13
    else { s with turn := { s.turn with mirror := s.turn.mirror.map fun m => if m.id = id then { m with due := m.due - 1 } else m } }

/-- Base of turning slot k (R431). -/
def slotBase (s : State) (k : Nat) : Nat := fld (if k = 0 then s.turn.slot0 else s.turn.slot1).toNat 47 18 * 2 ^ 18

/-- The VALID write of a mirror has failed: MIRROR_FAIL, and the turning counts as unmirrored (R436). -/
def mirrorLost (s : State) (step k : Nat) : State :=
  let s := turnFlag s 13
  let s := if fld s.turn.stat.toNat 63 16 = step then turnClear s 12 else s
  if fld (hubNum s (slotBase s k) 8) 63 16 = step then memWriteNum s (slotBase s k) 8 (hubNum s (slotBase s k) 8 &&& (2 ^ 64 - 3)) else s

/-- A write of the copy to a spare is complete (R455). One that fails makes the copy start again (log entry 103). -/
def spareEnd (s : State) : State :=
  { s with turn := { s.turn with spareCopy := s.turn.spareCopy.map fun c => { c with due := c.due - 1 } } }

/-- What the agent of a failed request reports (R30, R365). -/
def useFail (s : State) (u : TagUse) (st : Status) : State :=
  let thread (c n : Nat) (lanes : List Nat) : State :=
    match (coreOf s c).acc.find? fun a => a.n == n with
    | none => s
    | some a =>
      let s := modAcc s c n fun a =>
        { a with due := a.due - 1, lanes := a.lanes.map fun o => if lanes.contains o.lane then { o with got := some 0 } else o }
      programFault s c a.ctx (match mget? (coreOf s c).blocks a.blk with | some b => b.launch | none => (0, 0)) st
  let ladle (l k : Nat) : State :=
    match mget? s.ladles l with
    | none => s
    | some r => { s with ladles := mput s.ladles l { r with due := kdel r.due k, fail := some (r.fail.getD st) } }
  match u with
  | .load c n lanes _ => thread c n lanes
  | .store c n => thread c n []
  | .atom c n lane => thread c n [lane]
  | .ladleRead l k => ladle l k
  | .ladleWrite l k => ladle l k
  | .mirror id => mirrorEnd s id true
  | .mirrorValid step k => mirrorLost s step k
  | .spare => { s with turn := { s.turn with spareCopy := s.turn.spareCopy.map fun c => { c with next := 0, due := c.due - 1 } } }
  | .client => s

/-- RUONG_DROP.UNREACH raised (R374). -/
def countUnreach (s : State) : State := { s with fab := { s.fab with drop := bump16 s.fab.drop 0 1 } }

/-- The job ID in packets of this module (R339). -/
def ownJob (s : State) : Nat := match s.obj.job with | some j => j.1 | none => 0

/-- A packet put in the injection queue (R359). -/
def inject (s : State) (k : Packet) : State := { s with fab := { s.fab with inj := s.fab.inj ++ [k] } }

/-! ### Tags (R366) -/

/-- The TAG of MAILBOX and REDUCE packets, which no response answers; no request bears it (DESIGN CHOICE, log entry 106). -/
def noTag : Nat := 65535

/-- A free tag from `t` on. -/
def freeTagN (m : Map TagRec) : Nat → Nat → Nat
  | 0, t => t
  | n + 1, t => if (mget? m t).isSome then freeTagN m n ((t + 1) % noTag) else t

/-- A request of this module given a tag of its own and put in the injection queue (R340, R366). -/
def assignTag (s : State) (use : TagUse) (k : Packet) : State :=
  let t := freeTagN s.fab.tags s.fab.tags.length s.fab.nextTag
  let r : TagRec := { use := use, node := k.dst, since := now s, quar := none }
  let s := { s with fab := { s.fab with tags := mput s.fab.tags t r, nextTag := (t + 1) % noTag } }
  inject s { k with src := ownNode s, job := ownJob s, tag := t }

/-- A request of this module; it waits while every tag is out or held back (R366). -/
def request (s : State) (use : TagUse) (k : Packet) : State :=
  if noTag ≤ s.fab.tags.length then { s with fab := { s.fab with tagWait := s.fab.tagWait ++ [(use, k)] } }
  else assignTag s use k

/-- A tag free again: the first request that waits for one takes it. -/
def freeTag (s : State) (tag : Nat) : State :=
  let s := { s with fab := { s.fab with tags := mdel s.fab.tags tag } }
  match s.fab.tagWait with
  | [] => s
  | x :: xs => assignTag { s with fab := { s.fab with tagWait := xs } } x.1 x.2

/-- An outstanding tag given up with a status (R365); its tag is free again. One whose request has already timed out
stays held back, and its agent hears no more (R366). -/
def tagFail (s : State) (tag : Nat) (st : Status) : State :=
  match mget? s.fab.tags tag with
  | none => s
  | some r => if r.quar.isSome then s else useFail (freeTag s tag) r.use st

/-- The response to a request (R340, R348). -/
def respond (s : State) (k : Packet) (opc aux : Nat) (body : Bytes) : State :=
  inject s { dst := k.src, src := ownNode s, job := ownJob s, opc := opc, tc := k.tc, stripe := k.stripe, tag := k.tag,
             addr := k.addr, len := k.len, aux := aux, agent := k.agent, body := body }

/-- A packet that cannot go on: UNREACHABLE to its source, by ERROR_RSP or to the agent here (R351, R352, R360). -/
def unreachable (s : State) (k : Packet) : State :=
  let s := countUnreach s
  if isRsp k.opc then s
  else if k.src = ownNode s then tagFail s k.tag .unreachable
  else respond s k 7 (Status.unreachable).aux []

/-- Mask and data of a WRITE: bytes with their places in the three blocks (R337, R340). -/
def writeBody (start : Nat) (bs : Bytes) : Bytes :=
  let n := bs.length
  let mask := ((2 ^ n - 1) <<< start) % 2 ^ 192
  leBytes 24 mask ++ (List.replicate start 0 ++ bs ++ List.replicate (192 - start - n) 0)

/-- The way of a packet out of this module: its flit and its port, or UNREACHABLE where the direction is dead; none for
a packet that is at home (R350 to R353, R361). -/
def wayOut (s : State) (k : Packet) (came : Option (Nat × Bool)) : Option (TxFlit × Option Nat) :=
  (hopOf s k).map fun (d, neg, side, k') =>
    let k' := { k' with hops := min 63 (k'.hops + 1) }
    ({ pkt := k', vc := vcOf k' (dlNext s k came d neg side), seq := 0, orig := none }, egressPort s (dirCode d neg) k)

/-- Whether a flit can leave by a port at once: a credit of its VC, room in the retry buffer, and none of its VC before
it (R342, R345). -/
def canLeave (s : State) (p vc : Nat) : Bool :=
  let q := portOf s p
  decide (q.retry.length < 1024) && decide (mget q.spent 0 vc < 32) && !(q.txq.any fun t => t.vc == vc)

/-- One packet on its way out at this module; UNREACHABLE where there is no way. -/
def egress (s : State) (k : Packet) (came : Option (Nat × Bool)) : State :=
  match wayOut s k came with
  | none => s
  | some (_, none) => unreachable s k
  | some (t, some p) => pump (setPort s p { portOf s p with txq := (portOf s p).txq ++ [t] }) p

end Sys2Proof.Machine
end

