-- ==== Sys2Proof/Machine/Flags.lean ====
section
/-! DEFINITION. The sticky flags of a core and of its press and whey unit: how a bit of CORE_STAT,
PRESS_STAT and WHEY_STAT is set and how a write of ones clears bits (R13, R96, R182, R246). -/

namespace Sys2Proof.Machine

/-- CORE_STAT with bit `n` set (R182). -/
def Core.flag (k : Core) (n : Nat) : Core := { k with stat := k.stat ||| BitVec.ofNat 3 (2 ^ n) }

/-- Bits of CORE_STAT: PATH_SWITCH, ADMIT_WAIT, TRACK_STALL (R182). -/
def pathSwitchBit : Nat := 0
def admitWaitBit : Nat := 1
def trackStallBit : Nat := 2

/-- PRESS_STAT with bits set (R96). -/
def Core.pressFlag (k : Core) (v : Nat) : Core :=
  { k with press := { k.press with stat := k.press.stat ||| BitVec.ofNat 7 v } }

/-- WHEY_STAT with bits set (R246). -/
def Core.wheyFlag (k : Core) (v : Nat) : Core :=
  { k with whey := { k.whey with stat := k.whey.stat ||| BitVec.ofNat 8 v } }

end Sys2Proof.Machine
end

