-- ==== Sys2Proof/Machine/Ranges.lean ====
section
/-! DEFINITION. The ranges that the tracker of a core compares: of descriptors, of chains and of thread accesses (R172 to
R174, R215, R217, R226, R230). -/

namespace Sys2Proof.Machine

/-! ### Ranges -/

/-- A range of granules in a space: 0 scratchpad blocks, 1 accumulator memory, 2 operand cache, 3 other
memory blocks (R173). -/
structure Rng where
  space : Nat
  lo : Nat
  hi : Nat
  wr : Bool
  deriving DecidableEq, Repr

/-- Two ranges conflict when they share a granule and one of them writes (R173). -/
def Rng.conflict (a b : Rng) : Bool :=
  a.space == b.space && decide (a.lo ≤ b.hi) && decide (b.lo ≤ a.hi) && (a.wr || b.wr)

/-- Whether any two of two lists conflict. -/
def conflicts (as bs : List Rng) : Bool := as.any fun a => bs.any a.conflict

/-- Scratchpad bytes. -/
def spadRng (off len : Nat) (wr : Bool) : Rng := { space := 0, lo := off / 64, hi := (off + len - 1) / 64, wr := wr }

/-- Elements of accumulator memory (1) or the operand cache (2). -/
def elemRng (space el n : Nat) (wr : Bool) : Rng := { space := space, lo := el / 16, hi := (el + n - 1) / 16, wr := wr }

/-- Accumulator element of a destination row of a descriptor, and elements that it writes of it (R116). -/
def dDestRow (ws : List Dword) (r : Nat) : Nat × Nat :=
  let base := 32768 * dField ws 0 27 24
  let r0 := dField ws 6 39 32
  if dChed ws then (base + (r0 + r) * 128, dARows ws) else (base + (r0 + r) * 256, dACols ws)

/-- The destination rows of a descriptor as elements of accumulator memory: the first element and how many, rows taken
whole (R116). -/
def accSpan (ws : List Dword) : Nat × Nat :=
  let w := if dChed ws then 128 else 256
  (32768 * dField ws 0 27 24 + dField ws 6 39 32 * w, dSRows ws * w)

/-- The accumulator rows of a descriptor, which are held whole (R139, R173). -/
def dAccRngs (ws : List Dword) : List Rng := [elemRng 1 (accSpan ws).1 (accSpan ws).2 true]

/-- Everything that a descriptor holds (R139). -/
def pressRngs (ws : List Dword) : List Rng :=
  ((dRegions ws).map fun r => spadRng r.1 r.2 false) ++ dAccRngs ws

/-! ### Operands of chains (R214, R215) -/

/-- Fields of an operand word. -/
def opFmt (w : Nat) : Nat := fld w 63 60
def opStride (w : Nat) : Nat := fld w 59 35
def opSpace (w : Nat) : Nat := fld w 31 30
def opIndex (w : Nat) : Nat :=
  match opSpace w with | 0 => fld w 24 0 | 1 => fld w 18 0 | _ => fld w 17 0

/-- Element size in bytes of a format code of R208. -/
def fmtSize (f : Nat) : Nat :=
  match f with | 0 => 1 | 1 => 1 | 6 => 1 | 2 => 2 | 7 => 2 | _ => 4

/-- Whether a format has a scale array: DI8 and the block-scaled formats. -/
def fmtScaled (f : Nat) : Bool := f == 1 || f == 6 || f == 7

/-- Bytes of a row of `n` elements in scratchpad (R215). -/
def fmtRow (f n : Nat) : Nat := if f = 8 then 132 * ceilDiv n 64 else n * fmtSize f

/-- Offset or element index one past the last that an operand of `rows` by `cols` reaches. -/
def opEnd (w rows cols : Nat) : Nat :=
  opIndex w + (rows - 1) * opStride w + (if opSpace w = 0 then fmtRow (opFmt w) cols else cols)

/-- The range of an operand. -/
def opRng (w rows cols : Nat) (wr : Bool) : Rng :=
  let n := opEnd w rows cols - opIndex w
  match opSpace w with
  | 0 => spadRng (opIndex w) n wr
  | 1 => elemRng 1 (opIndex w) n wr
  | _ => elemRng 2 (opIndex w) n wr

/-- Bytes of the scale array of a chain operand (R215). -/
def sclLen (ch : Chain) : Nat := ch.rows * ceilDiv ch.cols 32

/-- Whether a stage reads Y (`false`) or Z (`true`) as a stream (R217). -/
def stageStream (st : Stage) (z : Bool) : Bool :=
  (st.ka == 3 && bitOf st.opa 0 == z) || (st.kb == 3 && bitOf st.opb 0 == z)

/-- Whether a stage writes a destination: WRITE or RED (R218). -/
def stageDest (st : Stage) : Bool := st.ty == 0xA || st.ty == 0x8

/-- The vectors of a stage in the operand cache: base and length (R217). -/
def stageVecs (ch : Chain) (st : Stage) : List (Nat × Nat) :=
  let v (k f : Nat) : List (Nat × Nat) :=
    match k with | 1 => [(fld f 17 0, ch.cols)] | 2 => [(fld f 17 0, ch.rows)] | _ => []
  v st.ka st.opa ++ v st.kb st.opb

/-- What a chain reads: X, its scales, Y and Z where a stage names them, vectors (R230). -/
def chainReads (ch : Chain) : List Rng :=
  [opRng ch.x ch.rows ch.cols false] ++
  (if fmtScaled (opFmt ch.x) then [spadRng ch.xscl (sclLen ch) false] else []) ++
  (if ch.stages.any fun st => stageStream st false then [opRng ch.y ch.rows ch.cols false] else []) ++
  (if ch.stages.any fun st => stageStream st true then [opRng ch.z ch.rows ch.cols false] else []) ++
  ch.stages.flatMap fun st => (stageVecs ch st).map fun v => elemRng 2 v.1 v.2 false

/-- What a chain writes: the destinations that its stages name, and the scale array (R230). -/
def chainWrites (ch : Chain) : List Rng :=
  ch.stages.flatMap fun st =>
    if stageDest st then
      let w := ch.d.getD st.dest 0
      opRng w ch.rows (if st.ty = 8 then 1 else ch.cols) true ::
        (if fmtScaled (opFmt w) then [spadRng ch.dscl (sclLen ch) true] else [])
    else []

/-- What an operand spans in its space, with its stride and element size. -/
structure OpSpan where
  space : Nat
  lo : Nat
  hi : Nat
  stride : Nat
  size : Nat
  deriving DecidableEq, Repr

/-- The span of an operand word, of a scale array in scratchpad, and of a vector in the operand cache. The elements of a
DG16 block lie as in no other format, and those of a vector at no stride of an operand: neither meets another operand
element for element (size 0 and a stride past every field). -/
def opSpan (w rows cols : Nat) : OpSpan :=
  { space := opSpace w, lo := opIndex w, hi := opEnd w rows cols, stride := opStride w
    size := if opFmt w = 8 then 0 else fmtSize (opFmt w) }
def sclSpan (off : Nat) (ch : Chain) : OpSpan := { space := 0, lo := off, hi := off + sclLen ch, stride := 0, size := 1 }
def vecSpan (v : Nat × Nat) : OpSpan := { space := 2, lo := v.1, hi := v.1 + v.2, stride := 2 ^ 25, size := 4 }

/-- Two spans that overlap, and not element for element: their LOC, STRIDE or element size differ (R226). -/
def OpSpan.across (a b : OpSpan) : Bool :=
  a.space == b.space && decide (a.lo < b.hi) && decide (b.lo < a.hi) &&
    (a.lo != b.lo || a.stride != b.stride || a.size != b.size)

/-- Whether a chain writes a region that it also reads other than element for element (R226). -/
def chainAcross (ch : Chain) : Bool :=
  let named (z : Bool) : Bool := ch.stages.any fun st => stageStream st z
  let reads := [opSpan ch.x ch.rows ch.cols] ++
    (if fmtScaled (opFmt ch.x) then [sclSpan ch.xscl ch] else []) ++
    (if named false then [opSpan ch.y ch.rows ch.cols] else []) ++
    (if named true then [opSpan ch.z ch.rows ch.cols] else []) ++
    ch.stages.flatMap fun st => (stageVecs ch st).map vecSpan
  let writes := (ch.stages.filter stageDest).flatMap fun st =>
    let w := ch.d.getD st.dest 0
    opSpan w ch.rows (if st.ty = 8 then 1 else ch.cols) :: (if fmtScaled (opFmt w) then [sclSpan ch.dscl ch] else [])
  reads.any fun a => writes.any a.across

/-- Everything that a chain holds. -/
def chainRngs (ch : Chain) : List Rng := chainReads ch ++ chainWrites ch

/-! ### Thread accesses -/

/-- The block of a lane's address in the tracker of core c (R173, R174). -/
def lineRng (c a : Nat) (wr : Bool) : Rng :=
  match regionOf a with
  | .spad d off => if d = c then { space := 0, lo := off / 64, hi := off / 64, wr := wr } else { space := 3, lo := a / 64, hi := a / 64, wr := wr }
  | _ => { space := 3, lo := a / 64, hi := a / 64, wr := wr }

/-- The ranges of a memory instruction. -/
def accRngs (c : Nat) (a : Acc) : List Rng :=
  if a.csr then [] else a.lanes.map fun o => lineRng c o.addr (a.kind != .load)

/-- Whether ranges of an access with issue number `n` conflict with an earlier one that is still held;
`press` when the access is a descriptor, which waits for no other descriptor (R173). -/
def earlierHeld (k : Core) (c n : Nat) (rs : List Rng) (press : Bool) : Bool :=
  (k.acc.any fun a => decide (a.n < n) && conflicts rs (accRngs c a)) ||
  (!press && (pressHeld k).any fun e => decide (e.n < n) && conflicts rs (pressRngs e.words)) ||
  (wheyHeld k).any fun e => decide (e.n < n) && conflicts rs (chainRngs e.chain)

end Sys2Proof.Machine
end

