-- ==== Sys2Proof/Machine/Operands.lean ====
section
/-! DEFINITION. The operands of thread instructions: fields, register names and widths (R187, R190, R191, R200, R203),
addresses (R174), the form of every operation (R192 to R210) and what its registers wait for (R156, R188). -/

namespace Sys2Proof.Machine

/-! ### Fields of the tail (R187) -/

def iB (i : Insn) : Nat := fld i.tail.toNat 31 24
def iC (i : Insn) : Nat := fld i.tail.toNat 23 16
def iMod (i : Insn) : Nat := fld i.tail.toNat 15 0
def iImm (i : Insn) : Nat := i.tail.toNat
def iDst (i : Insn) : Nat := i.dst.toNat
def iA (i : Insn) : Nat := i.a.toNat

/-! ### Registers and predicates (R147, R190, R191) -/

/-- Register `r` of a lane; zero reads as 0. -/
def reg (g : Group) (lane r : Nat) : Nat := if r = 255 then 0 else (mget g.regs 0 (256 * lane + r)).toNat

/-- A register written; a write to zero is discarded. -/
def setReg (g : Group) (lane r v : Nat) : Group :=
  if r = 255 then g else { g with regs := mset g.regs 0 (256 * lane + r) (BitVec.ofNat 32 v) }

/-- A pair, low half in the register named. -/
def regPair (g : Group) (lane r : Nat) : Nat :=
  if r = 255 then 0 else reg g lane r + 2 ^ 32 * reg g lane (r + 1)

/-- A run of `n` registers as one number, the lowest register least significant. -/
def regWide (g : Group) (lane r : Nat) : Nat → Nat
  | 0 => 0
  | n + 1 => if r = 255 then 0 else reg g lane r + 2 ^ 32 * regWide g lane (r + 1) n

/-- A run of `n` registers written from one number. -/
def setWide (g : Group) (lane r v : Nat) : Nat → Group
  | 0 => g
  | n + 1 => if r = 255 then g else setWide (setReg g lane r (v % 2 ^ 32)) lane (r + 1) (v / 2 ^ 32) n

/-- The first register of a unit of poison within its lane, and whether a run of registers meets it or covers it (R296;
the layout of the file in 64-bit words is a DESIGN CHOICE, log entry 109). -/
def unitReg (u : Nat) : Nat := 2 * (u % 128)
def unitMet (u lane r n : Nat) : Bool := u / 128 == lane && decide (r < unitReg u + 2) && decide (unitReg u < r + n)
def unitCovered (u lane r n : Nat) : Bool := u / 128 == lane && decide (r ≤ unitReg u) && decide (unitReg u + 2 ≤ r + n)

/-- A run of registers written at once, which replaces the poisoned units that it covers (R296). -/
def setUnits (g : Group) (lane r v n : Nat) : Group :=
  let g' := setWide g lane r v n
  if g.bad.isEmpty || r = 255 then g' else { g' with bad := g.bad.filter fun u => !unitCovered u lane r n }

/-- A pair written. -/
def setPair (g : Group) (lane r v : Nat) : Group := setUnits g lane r v 2

/-- Predicates p0 to p7 of a lane as eight bits. -/
def predByte (g : Group) (lane : Nat) : Nat := (mget g.preds 0 lane).toNat

/-- Predicate `n` of a lane. -/
def pred (g : Group) (lane n : Nat) : Bool := (predByte g lane).testBit n

/-- The eight predicates of a lane written. -/
def setPredByte (g : Group) (lane v : Nat) : Group := { g with preds := mset g.preds 0 lane (BitVec.ofNat 8 v) }

/-- One predicate written. -/
def setPred (g : Group) (lane n : Nat) (b : Bool) : Group :=
  setPredByte g lane (mergeBits (predByte g lane) (if b then 255 else 0) (2 ^ n))

/-- A predicate operand: bits 2:0 name it, bit 3 negates it (R199). -/
def predOperand (g : Group) (lane field : Nat) : Bool := pred g lane (field % 8) != bitOf field 3

/-- Second operand: SRC_B, or IMM32 as it stands (R187). -/
def operandB (g : Group) (lane : Nat) (i : Insn) : Nat := if i.fmt then iImm i else reg g lane (iB i)

/-- Second operand of a 64-bit operation: a pair, or IMM32 sign-extended (R187). -/
def operandB64 (g : Group) (lane : Nat) (i : Insn) : Nat :=
  if i.fmt then ofInt 64 (sext 32 (iImm i)) else regPair g lane (iB i)

/-! ### Addresses (R174, R200 to R203) -/

/-- Fields of the MEM tail (R200). -/
def memB (i : Insn) : Nat := fld i.tail.toNat 31 24
def memScope (i : Insn) : Nat := fld i.tail.toNat 23 21
def memOrd (i : Insn) : Nat := fld i.tail.toNat 20 19
def memCache (i : Insn) : Nat := fld i.tail.toNat 18 17
def memOff (i : Insn) : Int := sext 16 (fld i.tail.toNat 15 0)

/-- Space and width in bytes of the lower four bits of a MEM opcode (R200). -/
def subSpace (sub : BitVec 4) : Nat := fld sub.toNat 3 3
def subWidth (sub : BitVec 4) : Nat := 2 ^ fld sub.toNat 2 0

/-- Scope and order of an ATM or FNC tail, and its space bit (R203, R204). -/
def atmScope (i : Insn) : Nat := fld i.tail.toNat 15 13
def atmOrd (i : Insn) : Nat := fld i.tail.toNat 12 11
def atmSpace (i : Insn) : Nat := fld i.tail.toNat 10 10

/-- Scope and order go together, and the scope is defined (R201, R202). -/
def scopeOk (scope ord : Nat) : Bool := scope != 7 && ((ord == 0) == (scope == 0))

/-- Registers that hold `w` bytes. -/
def wordsOf (w : Nat) : Nat := max 1 (w / 4)

/-- Registers of an address: one for an offset, a pair for a global address. -/
def addrRegs (space : Nat) : Nat := if space = 0 then 1 else 2

/-- The address of a lane before it is placed: an offset or a global address (R200, R203). -/
def rawAddr (grp : Group) (lane r space : Nat) (off : Int) : Nat :=
  if space = 0 then ofInt 32 (Int.ofNat (reg grp lane r) + off) else ofInt 64 (Int.ofNat (regPair grp lane r) + off)

/-- The address in the form of the tracker (R174); an offset past the scratchpad is unmapped (R201). -/
def placeAddr (s : State) (c space a : Nat) : Nat :=
  if space = 0 then (if a < spadSize then spadBase c + a else 0x100000000000) else reachKey s a

/-! ### The form of an instruction (R192, R210) -/

/-- What an operation admits: forms R and I, the registers it names with their widths, whether it writes memory or
queues work, whether its enumerated fields hold defined values. -/
structure Form where
  r : Bool := true
  im : Bool := false
  regs : List (Nat × Nat)
  ok : Bool := true
  /-- The second register named is read in the lane that SRC_B gives, active or not (LANE.RD). -/
  far : Bool := false
  /-- The first register named is a source too: the operation has no destination register. -/
  noDst : Bool := false
  access : Bool := false
  tracked : Bool := false
  deriving DecidableEq, Repr

/-- An operation in form R that names some registers. -/
def formR (regs : List Nat) : Form := { regs := regs.map fun r => (r, 1) }

/-- Whether a register field is well placed and allocated: zero, or aligned to its width with every
register below the allocation of the block (R147, R191). -/
def regOk (n : Nat) (rw : Nat × Nat) : Bool :=
  rw.1 == 255 || (rw.1 % rw.2 == 0 && decide (rw.1 + rw.2 ≤ 255) && decide (rw.1 + rw.2 ≤ 8 * ceilDiv n 8))

/-- Whether the word is free of encoding errors and register faults. -/
def formOk (n : Nat) (f : Form) (i : Insn) : Bool :=
  (if i.fmt then f.im else f.r) && f.ok && f.regs.all (regOk n)

/-! ### Issue -/

/-- A group at the point of issue: the core, the group with its paths merged, its block and context,
the running path's address, the active lanes in ascending order. -/
structure Issue where
  c : Nat
  g : Nat
  k : Core
  grp : Group
  blk : Block
  pc : Nat
  act : List Nat
  deriving DecidableEq, Repr

/-- The paths after R160: every waiting path at the running path's address joins it. -/
def mergePaths : List Path → List Path
  | [] => []
  | p :: ps =>
    let same := ps.filter fun q => q.pc = p.pc
    { p with lanes := same.foldl (fun m q => m ||| q.lanes) p.lanes } :: ps.filter fun q => q.pc ≠ p.pc

/-- The active lanes of the running path (R188). -/
def activeLanes (g : Group) (p : Path) (i : Insn) : List Nat :=
  (bitsOf 32 p.lanes.toNat).filter fun l => !i.pe || (pred g l i.pi.toNat != i.pn)

/-- Lanes as a mask. -/
def laneMask (ls : List Nat) : BitVec 32 := BitVec.ofNat 32 (ls.foldl (fun m l => m ||| 2 ^ l) 0)

/-- The registers that an instruction names, each with the lanes in which it takes part. -/
def regLanes (g : Group) (f : Form) (act : List Nat) (i : Insn) : List ((Nat × Nat) × List Nat) :=
  match f.far, f.regs with
  | true, d :: a :: rest => (d, act) :: (a, act.map fun l => reg g l (iB i) % 32) :: rest.map fun rw => (rw, act)
  | _, rs => rs.map fun rw => (rw, act)

/-- Whether a register that the instruction names is still to be written by a load or an atomic of the
group in one of its lanes: the group is not ready (R156). -/
def operandsPending (k : Core) (g : Nat) (grp : Group) (f : Form) (act : List Nat) (i : Insn) : Bool :=
  k.acc.any fun a =>
    a.grp == g && a.kind != .store && a.dst != 255 &&
    (regLanes grp f act i).any fun rl =>
      decide (rl.1.1 < a.dst + max 1 (a.width / 4)) && decide (a.dst < rl.1.1 + rl.1.2) && a.lanes.any fun o => rl.2.contains o.lane

/-- Whether an instruction reads a poisoned register in one of its lanes (R296, log entry 109). -/
def operandsBad (g : Group) (f : Form) (act : List Nat) (i : Insn) : Bool :=
  let rs := (regLanes g f act i).drop (if f.noDst then 0 else 1)
  g.bad.any fun u => rs.any fun rl => rl.1.1 != 255 && rl.2.contains (u / 128) && unitMet u (u / 128) rl.1.1 rl.1.2

/-! ### The forms of the operations (R194 to R210) -/

/-- Whether the fields of a MEM instruction are defined; `ord` is the order that its kind admits (R200, R201). -/
def memOk (sub : BitVec 4) (i : Insn) (ord : Nat) : Bool :=
  decide (fld sub.toNat 2 0 ≤ 4) && (memOrd i == 0 || memOrd i == ord) && scopeOk (memScope i) (memOrd i) &&
    decide (memCache i ≤ 1) && (subSpace sub == 1 || memCache i == 0)

/-- Whether a format is a destination of binary32 (R208). -/
def cvtDest (f : Nat) : Bool := f == 0 || f == 1 || f == 2 || f == 6 || f == 7 || f == 8

/-- The pairs that CVT accepts (R208). -/
def cvtPair (sf df : Nat) : Bool :=
  match sf with
  | 0 => df == 2 || df == 3
  | 1 => df == 3
  | 2 => df == 0 || df == 3 || df == 6
  | 3 => cvtDest df
  | 6 => df == 3
  | 7 => df == 3
  | 8 => df == 3
  | _ => false

/-- BRA; CALL; JMP and RET (R194). -/
def braForm : Form := { r := false, im := true, regs := [] }
def callForm (i : Insn) : Form := { r := false, im := true, regs := [(iDst i, 2)] }
def jmpForm (i : Insn) : Form := { regs := [(iA i, 2)], noDst := true }

/-- An operation that reads the register a alone: the waits BAR, SYNCG, MXWAIT and WXWAIT, and LOADP. -/
def srcForm (i : Insn) : Form := { formR [iA i] with noDst := true }

/-- Second source of an operation with forms R and I, of `w` registers. -/
def srcB (i : Insn) (w : Nat) : List (Nat × Nat) := if i.fmt then [] else [(iB i, w)]

/-- Integer and binary32 operations: of a and b, of a alone, MOV, of a, b and c, SEL, LANE.RD, of pairs (R196, R197). -/
def intForm (i : Insn) : Form := { im := true, regs := [(iDst i, 1), (iA i, 1)] ++ srcB i 1 }
def int1Form (i : Insn) : Form := formR [iDst i, iA i]
def movForm (i : Insn) : Form := { im := true, regs := (iDst i, 1) :: srcB i 1 }
def triForm (i : Insn) : Form := formR [iDst i, iA i, iB i, iC i]
def selForm (i : Insn) : Form := formR [iDst i, iA i, iB i]
def laneRdForm (i : Insn) : Form := { formR [iDst i, iA i, iB i] with far := true }
def int64Form (i : Insn) : Form := { im := true, regs := [(iDst i, 2), (iA i, 2)] ++ srcB i 2 }

/-- Tests; PACKP and GMASK, which name a destination alone (R199). -/
def testForm (i : Insn) : Form := { im := true, noDst := true, regs := (iA i, 1) :: srcB i 1 }
def dstForm (i : Insn) : Form := formR [iDst i]

/-- SRD (R209). -/
def srdForm (i : Insn) : Form := { regs := [(iDst i, if iA i = 0x0A then 2 else 1)], ok := decide (iA i ≤ 0x0A) }

/-- Loads, stores, atomics and fences (R200, R203, R204). -/
def loadForm (sub : BitVec 4) (i : Insn) : Form :=
  { regs := [(iDst i, wordsOf (subWidth sub)), (iA i, addrRegs (subSpace sub))], ok := memOk sub i 1, access := true, tracked := true }
def storeForm (sub : BitVec 4) (i : Insn) : Form :=
  { noDst := true, regs := [(memB i, wordsOf (subWidth sub)), (iA i, addrRegs (subSpace sub))], ok := memOk sub i 2
    access := true, tracked := true }
def atomForm (op : Nat) (wide : Bool) (i : Insn) : Form :=
  let n := wordsOf (if wide then 8 else 4)
  { regs := [(iDst i, n), (iA i, addrRegs (atmSpace i)), (iB i, n)] ++ (if op = 10 then [(iC i, n)] else [])
    ok := scopeOk (atmScope i) (atmOrd i) && !(op == 1 && wide), access := true, tracked := true }
def fenceForm (i : Insn) : Form :=
  { noDst := true, regs := if atmSpace i = 1 then [(iA i, 2), (iB i, 1)] else []
    ok := atmOrd i != 0 && atmScope i != 0 && atmScope i != 7, access := true }

/-- MXISSUE and WXISSUE; CVT (R205 to R208). -/
def unitForm (i : Insn) : Form := { regs := [(iDst i, 1), (iA i, 1)], access := true }
def cvtForm (i : Insn) : Form :=
  { regs := [(iDst i, 1), (iA i, 1), (iB i, 1), (iC i, 2)]
    ok := cvtPair (fld (iMod i) 15 12) (fld (iMod i) 11 8) && fld (iMod i) 7 6 != 3, access := true }

end Sys2Proof.Machine
end

