-- ==== Sys2Proof/Machine/Issue.lean ====
section
/-! DEFINITION. The frame in which every thread instruction issues: paths (R158 to R160), fetch and decode faults (R185,
R192, R210), readiness and the pick of a group (R104, R156, R175, R303). -/

namespace Sys2Proof.Machine

/-- The group in a slot of a core at its next issue, where the core runs and the group has not ended. -/
def issueOf (s : State) (c g : Nat) (i : Insn) : Option Issue :=
  let k := coreOf s c
  match mget? k.groups g with
  | none => none
  | some grp =>
    match mget? k.blocks grp.blk, mergePaths grp.paths with
    | some blk, p :: ps =>
      if k.stopped || pllDown s (4 + c / 64) then none
      else
        some { c := c, g := g, k := k, grp := { grp with paths := p :: ps }, blk := blk, pc := p.pc,
               act := activeLanes grp p i }
    | _, _ => none

/-- What the fetch and decode of the word at an address meet: no memory in service, or a reserved CLASS or OP
(R185, R192, R210). -/
def fetchCheck (s : State) (pc : Nat) : Option Status :=
  if pc < 2 ^ 48 then
    match memCheck s pc 8 with
    | some st => some st
    | none => if (decodeThread 0 0 (BitVec.ofNat 64 (rdNum s pc 8))).isNone then some .instrFault else none
  else some .addressFault

/-- The lowest-numbered active thread (R161, R206). -/
def lowest (x : Issue) : Nat := x.act.headD 0

/-- Whether the tracker holds all the thread memory instructions that it can; one whose lanes reach both memory and
registers is one entry (R175). -/
def trackerFull (k : Core) : Bool := decide (256 ≤ ((k.acc.map (·.ins)).eraseDups).length)

/-! ### Queues that an instruction may find full -/

/-- Entries that occupy the press queue of 128, from acceptance to completion (R104, R134). -/
def pressDepth (k : Core) : Nat := (pressHeld k).length

/-- Whether an earlier store, or a chain accepted before, has still to write the descriptor's bytes (R177, R178). -/
def descPending (k : Core) (c off len : Nat) : Bool :=
  let here := [spadRng off len false]
  (k.acc.any fun a => a.kind != .load && conflicts here (accRngs c a)) ||
    (wheyHeld k).any fun e => conflicts here (chainWrites e.chain)

/-- Entries that occupy the whey queue of 32 (R228, R249). -/
def wheyDepth (k : Core) : Nat := (wheyHeld k).length

/-! ### The pick (R156) -/

/-- The form of a thread instruction. -/
def formOf : Instr → Form
  | .nop _ _ _ | .exit _ _ _ | .plogAnd _ _ _ | .plogOr _ _ _ | .plogXor _ _ _ | .gany _ _ _ | .gall _ _ _ => formR []
  | .bra _ _ _ => braForm
  | .call _ _ i => callForm i
  | .jmp _ _ i | .ret _ _ i => jmpForm i
  | .bar _ _ i | .syncg _ _ i | .mxwait _ _ i | .wxwait _ _ i | .loadp _ _ i => srcForm i
  | .mov _ _ i => movForm i
  | .add _ _ i | .sub _ _ i | .mullo _ _ i | .mulhiS _ _ i | .mulhiU _ _ i | .and _ _ i | .or _ _ i | .xor _ _ i
  | .shl _ _ i | .shr _ _ i | .sar _ _ i | .minS _ _ i | .minU _ _ i | .maxS _ _ i | .maxU _ _ i | .fadd _ _ i
  | .fmul _ _ i | .fmin _ _ i | .fmax _ _ i => intForm i
  | .popc _ _ i | .clz _ _ i | .fabs _ _ i | .fneg _ _ i => int1Form i
  | .mad _ _ i | .fma _ _ i => triForm i
  | .sel _ _ i => selForm i
  | .laneRd _ _ i => laneRdForm i
  | .add64 _ _ i | .sub64 _ _ i => int64Form i
  | .testEq _ _ i | .testNe _ _ i | .testLtS _ _ i | .testLeS _ _ i | .testGtS _ _ i | .testGeS _ _ i | .testLtU _ _ i
  | .testLeU _ _ i | .testGtU _ _ i | .testGeU _ _ i | .ftestEq _ _ i | .ftestNe _ _ i | .ftestLt _ _ i
  | .ftestLe _ _ i | .ftestGt _ _ i | .ftestGe _ _ i => testForm i
  | .packp _ _ i | .gmask _ _ i => dstForm i
  | .srd _ _ i => srdForm i
  | .load _ _ sub i => loadForm sub i
  | .store _ _ sub i => storeForm sub i
  | .atomAdd _ _ wide i => atomForm 0 wide i
  | .atomFadd _ _ wide i => atomForm 1 wide i
  | .atomMinS _ _ wide i => atomForm 2 wide i
  | .atomMinU _ _ wide i => atomForm 3 wide i
  | .atomMaxS _ _ wide i => atomForm 4 wide i
  | .atomMaxU _ _ wide i => atomForm 5 wide i
  | .atomAnd _ _ wide i => atomForm 6 wide i
  | .atomOr _ _ wide i => atomForm 7 wide i
  | .atomXor _ _ wide i => atomForm 8 wide i
  | .atomExch _ _ wide i => atomForm 9 wide i
  | .atomCas _ _ wide i => atomForm 10 wide i
  | .fence _ _ i => fenceForm i
  | .mxissue _ _ i | .wxissue _ _ i => unitForm i
  | .cvt _ _ i => cvtForm i
  | _ => formR []

/-- The lanes of a memory instruction as far as control and status space and the ladle queue tell them apart. -/
def askedLanes (s : State) (x : Issue) (i : Insn) (space : Nat) (off : Int) : List LaneOp :=
  x.act.map fun l => { lane := l, addr := placeAddr s x.c space (rawAddr x.grp l (iA i) space off) }

/-- Whether an instruction with active threads finds its unit taken: a full queue, a descriptor still to be written, stores
to control and status space before a load of it (R104, R177, R228, R303, R331). -/
def unitBusy (s : State) (x : Issue) : Instr → Bool
  | .mxissue _ _ i =>
    descPending x.k x.c (reg x.grp (lowest x) (iA i)) 64 || !mayTake x.k.press.stall x.g (128 - pressDepth x.k)
  | .wxissue _ _ i =>
    descPending x.k x.c (reg x.grp (lowest x) (iA i)) 192 || !mayTake x.k.whey.stall x.g (32 - wheyDepth x.k)
  | .cvt _ _ _ => !mayTake x.k.whey.stall x.g (32 - wheyDepth x.k)
  | .load _ _ sub i =>
    !(csrPending x.k).isEmpty && (askedLanes s x i (subSpace sub) (memOff i)).any fun o => isCsr o.addr
  | .store _ _ sub i =>
    submits (askedLanes s x i (subSpace sub) (memOff i)) != 0 && !mayTake x.k.ladleStall x.g (ladleRoom x.k)
  | _ => false

/-- Whether the group in a slot is ready: its next instruction issues, or faults at issue (R156). The model has no times of
units: a unit is free unless its queue is full (DESIGN CHOICE, log entry 14). -/
def readySlot (s : State) (c g : Nat) : Bool :=
  match issueOf s c g (insnOfWord 0) with
  | none => false
  | some y =>
    if asleep s y.pc 8 then false
    else if (fetchCheck s y.pc).isSome then true
    else
      let w := BitVec.ofNat 64 (rdNum s y.pc 8)
      let i := insnOfWord w
      match decodeThread c g w, issueOf s c g i with
      | some j, some x =>
        let f := formOf j
        if !formOk x.blk.n f i then true
        else if operandsPending x.k g x.grp f x.act i then false
        else if operandsBad x.grp f x.act i || x.act.isEmpty then true
        else !(f.access && !x.grp.holds.isEmpty) && !(f.tracked && trackerFull x.k) && !unitBusy s x j
      | _, _ => true

/-- How far a slot lies above the slot that issued last, wrapping from 47 to 0 (R156). -/
def slotsAbove (k : Core) (g : Nat) : Nat := (g + 47 - k.lastSlot) % 48

/-- Whether the core picks slot `g` in this core cycle, where `g` is ready: no slot between the one that issued last and
`g` is ready (R156). -/
def picked (s : State) (c g : Nat) : Bool :=
  let k := coreOf s c
  k.groups.all fun kv => decide (slotsAbove k g ≤ slotsAbove k kv.1) || !readySlot s c kv.1

/-! ### Issue -/

/-- A fault of an instruction: the context of its block is lost (R210). A faulting instruction does not count as issued in
the registers of R183 and does not move the slot that issued last (DESIGN CHOICE, log entry 119). -/
def issueFault (s : State) (x : Issue) (st : Status) : State :=
  programFault s x.c x.blk.ctx x.blk.launch st

/-- The core's counts after a core cycle in which it has issued for a slot (R156, R157, R183). -/
def countIssue (k : Core) (g : Nat) : Core :=
  { k with lastSlot := g, issueCnt := k.issueCnt + 1, resCnt := k.resCnt + 1, cycle := k.cycle + 1 }

/-- The state with the group of an issue replaced, and the core's counts moved on. -/
def putIssue (s : State) (x : Issue) (grp : Group) : State :=
  modCore s x.c fun k => countIssue { k with groups := mput k.groups x.g grp } x.g

/-- The group with its running path at another address. -/
def atPc (grp : Group) (pc : Nat) : Group :=
  match grp.paths with
  | [] => grp
  | p :: ps => { grp with paths := { p with pc := pc } :: ps }

/-- The running path moved to the tail (R159). -/
def rotate (grp : Group) : Group :=
  match grp.paths with
  | [] => grp
  | p :: ps => { grp with paths := ps ++ [p] }

/-- The instruction done: the group goes on at the next word (R185). -/
def advance (s : State) (x : Issue) (grp : Group) : State := putIssue s x (atPc grp (x.pc + 8))

/-- The wait not satisfied: the running path goes to the tail, at the same address (R159). Each attempt counts as an
issued instruction (R183; DESIGN CHOICE, log entry 100). -/
def waitPath (s : State) (x : Issue) (grp : Group) : State := putIssue s x (rotate grp)

/-- The issue of an instruction: fetch, decode faults, readiness, then its effect. A group that cannot issue, or that is
not the one that the core picks, leaves the state as it is (log entries 7 and 14). -/
def issue (s : State) (c g : Nat) (f : Form) (i : Insn) (run : Issue → Res) : Res :=
  onCore c (onUnit 48 g (match issueOf s c g i with
  | none => .next s
  | some x =>
    if !picked s c g then .next s
    else if asleep s x.pc 8 then .next (askWake s x.pc 8)
    else match fetchCheck s x.pc with
    | some st => .next (issueFault s x st)
    | none =>
      if !formOk x.blk.n f i then .next (issueFault s x .instrFault)
      else if operandsPending x.k g x.grp f x.act i then .next s
      else if operandsBad x.grp f x.act i then .next (issueFault (poisonMet s none c (some x.blk.ctx)) x .memPoison)
      else if f.access && !x.act.isEmpty && !x.grp.holds.isEmpty then .next s
      else if f.tracked && !x.act.isEmpty && trackerFull x.k then .next (modCore s c fun k => k.flag trackStallBit)
      else run x))

/-- An instruction that changes only its own group: `op` gives the group after each active lane. -/
def laneOp (s : State) (c g : Nat) (f : Form) (i : Insn) (op : Group → Group → Nat → Group) : Res :=
  issue s c g f i fun x => .next (advance s x (x.act.foldl (fun grp l => op x.grp grp l) x.grp))

end Sys2Proof.Machine
end

