-- ==== Sys2Proof/Machine/Tracker.lean ====
section
/-! DEFINITION. The wait points of releases (R312, R313), the
L1 cache (R292, R293, R314, R315, R318) and the way of a thread access to memory, at home or at another
node (R280, R321, R340). -/

namespace Sys2Proof.Machine

/-! ### L1 (R292, R293) -/

/-- Whether the L1 may hold an address (R292). -/
def cacheable (a : Nat) : Bool :=
  match regionOf (a % 2 ^ 48) with | .hbm | .cave | .shared _ => true | _ => false

/-- The lines of a set. -/
def l1Set (k : Core) (line : Nat) : List Nat := (k.l1.map Prod.fst).filter fun x => x % 512 == line % 512

/-- A line put into the L1; a full set loses the line that a free value names, since the state of the
pseudo-LRU is not given (R292, log entry 9). -/
def l1Fill (s : State) (c line : Nat) (data : Bytes) : State :=
  let k := coreOf s c
  let set := l1Set k line
  if (mget? k.l1 line).isSome || set.length < 8 then modCore s c fun k => { k with l1 := mput k.l1 line data }
  else
    let victim := set.getD (freeVal s % 8) 0
    modCore (drawn s) c fun k => { k with l1 := mput (mdel k.l1 victim) line data }

/-- The value of `n` bytes that a present line gives (R292). -/
def l1Hit (k : Core) (a n : Nat) : Option Nat :=
  (mget? k.l1 (a / 64)).map fun d => leVal (sliceB d (a % 64) n)

/-- Bytes stored into a line. -/
def patchLine (d : Bytes) (at_ : Nat) (bs : Bytes) : Bytes := d.take at_ ++ bs ++ d.drop (at_ + bs.length)

/-- A store of `n` bytes seen by the core's own L1: the line updated, or removed with CACHE = 0b01 (R293). -/
def l1Store (k : Core) (a n v : Nat) (bypass : Bool) : Core :=
  match mget? k.l1 (a / 64) with
  | none => k
  | some d =>
    if bypass then { k with l1 := mdel k.l1 (a / 64) }
    else { k with l1 := mput k.l1 (a / 64) (patchLine d (a % 64) (leBytes n v)) }

/-- A line as the core fills it: the bytes of memory with its own later stores to it; none when a pending
atomic or a store with CACHE = 0b01 of the core reaches the line, which would remove it (R293, R309). -/
def fillLine (k : Core) (n line : Nat) (data : Bytes) : Option Bytes :=
  k.acc.foldl
    (fun acc a =>
      match acc with
      | none => none
      | some d =>
        if a.n ≤ n || a.kind == .load || a.csr then some d
        else
          let here := a.lanes.filter fun o => o.addr / 64 = line && o.got.isNone
          if here.isEmpty then some d
          else if a.kind == .atom || a.bypass then none
          else some (here.foldl (fun d o => patchLine d (o.addr % 64) (leBytes a.width o.data)) d))
    (some data)

/-! ### Atomic operations (R166, R169, R203) -/

/-- The new value of an atomic on `w`-bit operands. -/
def atomNew (op w old b c : Nat) : Nat :=
  match op with
  | 0 => (old + b) % 2 ^ w
  | 1 => fAdd old b
  | 2 => if sext w old ≤ sext w b then old else b
  | 3 => min old b
  | 4 => if sext w old ≤ sext w b then b else old
  | 5 => max old b
  | 6 => old &&& b
  | 7 => old ||| b
  | 8 => old ^^^ b
  | 9 => b
  | _ => if old = b then c else old

/-- Whether the core combines the lanes of one address into one memory operation: not EXCH and CAS (R170, R171). -/
def atomCombines (op : Nat) : Bool := op != 9 && op != 10

/-! ### Sending an access -/

/-- Mask and data of a WRITE from bytes with their places (R337). -/
def maskBody (ws : List (Nat × Byte)) : Bytes :=
  let mask := ws.foldl (fun m w => m ||| 2 ^ w.1) 0
  leBytes 24 mask ++ ws.foldl (fun d w => lset d w.1 w.2) (List.replicate 192 0)

/-- Bytes of a number with their places from `at_`. -/
def placed (at_ n v : Nat) : List (Nat × Byte) :=
  let bs := leBytes n v
  (List.range n).map fun i => (at_ + i, bs.getD i 0)

/-- The node and local address of a remote tracker address. -/
def remoteOf (a : Nat) : Nat × Nat := (a / 2 ^ 48 - 1, a % 2 ^ 48)

/-- A data-class packet of a thread to the memory at a remote tracker address; DST is the node ID as written (R362). -/
def threadPkt (c opc node addr : Nat) : Packet :=
  { dst := node, src := 0, job := 0, opc := opc, tc := 0, addr := (remoteOf addr).2, agent := c }

/-- The node ID that some lanes name. -/
def laneNode (ls : List LaneOp) : Nat := match ls with | o :: _ => o.node | [] => 0

/-- The lanes of an access to other nodes, block by block. -/
def remoteLines (a : Acc) : List Nat := ((a.lanes.filter fun o => !isLocal o.addr && o.got.isNone).map fun o => o.addr / 64).eraseDups

/-- The packet of an atomic for the lanes of one address: all of them, or the first (R170, R171). A sum of binary32
depends on the order, so FADD sends the operand of every lane: those after the first follow the operands b and c, four
bytes each (DESIGN CHOICE, log entry 10). -/
def atomPkt (c : Nat) (a : Acc) (addr : Nat) : Option (Packet × Nat) :=
  let ls := a.lanes.filter fun o => o.addr = addr && o.got.isNone
  match ls with
  | [] => none
  | o :: rest =>
    let b := if a.op ≠ 1 && atomCombines a.op then rest.foldl (fun b o => atomNew a.op (8 * a.width) b o.data 0) o.data else o.data
    let more := if a.op = 1 then (rest.zip (List.range rest.length)).flatMap fun p => placed (16 + 4 * p.2) 4 p.1.data else []
    let k := { threadPkt c 4 o.node addr with
      rel := a.rel == 4 || a.rel == 5
      aux := 2 * a.op + (a.width / 8 % 2)
      body := maskBody (placed 0 8 b ++ placed 8 8 o.alt ++ more) }
    some (k, o.lane)

/-- The requests of an access to other nodes (R321, R324, R340). -/
def accRequests (c : Nat) (a : Acc) : List (TagUse × Packet) :=
  match a.kind with
  | .load =>
    (remoteLines a).map fun line =>
      let here := a.lanes.filter fun o => o.addr / 64 = line && o.got.isNone
      let whole := !a.bypass && a.acq < 4 && cacheable (line * 64)
      let lo := if whole then line * 64 else here.foldl (fun m o => min m o.addr) (line * 64 + 63)
      let hi := if whole then line * 64 + 64 else here.foldl (fun m o => max m (o.addr + a.width)) 0
      (.load c a.n (here.map (·.lane)) (if whole then some line else none),
        { threadPkt c 2 (laneNode here) lo with len := hi - lo })
  | .store =>
    (remoteLines a).map fun line =>
      let here := a.lanes.filter fun o => o.addr / 64 = line
      let k := { threadPkt c 1 (laneNode here) (line * 64) with
        rel := a.rel == 4 || a.rel == 5
        body := maskBody (here.flatMap fun o => placed (o.addr % 64) a.width o.data) }
      (.store c a.n, k)
  | .atom =>
    let addrs := ((a.lanes.filter fun o => !isLocal o.addr).map (·.addr)).eraseDups
    addrs.filterMap fun x => (atomPkt c a x).map fun p => (.atom c a.n p.2, p.1)

/-- An access on its way to memory: it takes its place in the order in which accesses leave, its part at home is still
to be performed, its requests enter the Ruong egress (R311, R312, R321). -/
def sendAcc (s : State) (c n : Nat) : State :=
  match (coreOf s c).acc.find? fun a => a.n == n with
  | none => s
  | some a =>
    let rs := accRequests c a
    let s := modAcc s c n fun a =>
      { a with st := .sent, stamp := s.vatSeq, due := rs.length, home := a.lanes.all fun o => !isLocal o.addr || o.got.isSome }
    let s := { s with vatSeq := s.vatSeq + 1 }
    rs.foldl (fun s r => request s r.1 r.2) s

/-- Whether an earlier access of the core that has not left it reaches a block of this one: accesses of one core to one
64-byte block are performed in core issue order (R317). -/
def blockBehind (k : Core) (a : Acc) : Bool :=
  k.acc.any fun b =>
    decide (b.n < a.n) && b.st != .sent && !b.csr && !a.csr && b.lanes.any fun p => p.got.isNone && a.lanes.any fun o => o.addr / 64 == p.addr / 64

/-- An access that waits for nothing more is sent (R173, R313, R317). -/
def proceed (s : State) (c n : Nat) : State :=
  match (coreOf s c).acc.find? fun a => a.n == n with
  | none => s
  | some a =>
    if a.st == .sent then s
    else if earlierHeld (coreOf s c) c n (accRngs c a) false || blockBehind (coreOf s c) a then modAcc s c n fun a => { a with st := .conflict }
    else if !a.waits.isEmpty then modAcc s c n fun a => { a with st := .release }
    else sendAcc s c n

/-! ### Wait points (R312, R313) -/

/-- Whether a lane reaches the own scratchpad of core c. -/
def ownSpad (c : Nat) (o : LaneOp) : Bool := match regionOf o.addr with | .spad d _ => d == c | _ => false

/-- Whether every request of an access to other nodes has entered the Ruong egress: an EXCH or CAS sends its lanes of one
address one after another (R171, R312). -/
def allOut (a : Acc) : Bool :=
  a.kind != .atom || atomCombines a.op || decide ((a.lanes.filter fun o => !isLocal o.addr && o.got.isNone).length ≤ a.due)

/-- Whether an earlier access has reached the wait point of a scope (R312). -/
def reached (c scope : Nat) (a : Acc) : Bool :=
  if scope ≤ 3 then true
  else if a.st != .sent then false
  else match scope with
    | 4 => (a.home || a.lanes.all fun o => !ownSpad c o || o.got.isSome) && allOut a
    | 5 => a.home && allOut a
    | _ => false

/-- Whether an access that left before `a` still has to be performed at the block of lane `o`: one of the same core, or,
outside the own scratchpad, one of any core of the vat, whose own scratchpad accesses take no place in the order
(R311, R317). -/
def laneBehind (s : State) (c : Nat) (a : Acc) (o : LaneOp) : Bool :=
  let own := ownSpad c o
  s.cores.any fun kv =>
    (kv.1 == c || (!own && kv.1 / 64 == c / 64)) && kv.2.acc.any fun b =>
      b.st == .sent && decide (b.stamp < a.stamp) && !b.csr &&
        b.lanes.any fun p => p.got.isNone && p.addr / 64 == o.addr / 64 && (kv.1 == c || !ownSpad kv.1 p)

/-- Whether every access of the core before issue number `n` has reached the wait point of a scope. -/
def allReached (k : Core) (c n scope : Nat) : Bool :=
  k.acc.all fun a => decide (n ≤ a.n) || reached c scope a

/-- The whole L1 dropped, or only the lines that a range overlaps (R314, R315). -/
def l1Drop (k : Core) (range : Option (Nat × Nat)) : Core :=
  match range with
  | none => { k with l1 := [] }
  | some (b, n) =>
    if n = 0 then k
    else if 512 < (b + n - 1) / 64 - b / 64 + 1 then { k with l1 := [] }
    else { k with l1 := k.l1.filter fun kv => !(decide (b / 64 ≤ kv.1) && decide (kv.1 ≤ (b + n - 1) / 64)) }

/-- A hold of a group taken away. -/
def dropHold (k : Core) (g n : Nat) : Core :=
  match mget? k.groups g with
  | some grp => { k with groups := mput k.groups g { grp with holds := grp.holds.filter fun x => x ≠ n } }
  | none => k

/-- Acquire fences whose group has no earlier load or atomic left act and end (R315, R316). -/
def settleFences (s : State) (c : Nat) : State :=
  let k := coreOf s c
  let ready (f : FencePend) : Bool :=
    f.rel == 0 && !(k.acc.any fun a => a.grp == f.grp && decide (a.n < f.n) && a.kind != .store)
  let k := (k.fences.filter ready).foldl (fun k f => dropHold (if f.acq then l1Drop k f.range else k) f.grp f.n) k
  setCore s c { k with fences := k.fences.filter fun f => !ready f }

/-- The scope of a release that holds something, by its issue number. -/
def releaseScope (k : Core) (n : Nat) : Option Nat :=
  match k.fences.find? fun f => f.n == n && f.rel != 0 with
  | some f => some f.rel
  | none =>
    match k.acc.find? fun a => a.waits.any fun w => w.1 == n with
    | some a => (a.waits.find? fun w => w.1 == n).map Prod.snd
    | none => k.groups.findSome? fun kv => (kv.2.rels.find? fun w => w.1 == n).map Prod.snd

/-- A release ends: what it held goes on (R313, R316). -/
def endRelease (s : State) (c n : Nat) : State :=
  let s := modCore s c fun k =>
    { k with
      groups := k.groups.map fun kv => (kv.1, { kv.2 with rels := kv.2.rels.filter fun w => w.1 ≠ n })
      fences := k.fences.map fun f => if f.n = n then { f with rel := 0 } else f
      acc := k.acc.map fun a => { a with waits := a.waits.filter fun w => w.1 ≠ n } }
  let s := ((coreOf s c).acc.filter fun a => a.st == .release && a.waits.isEmpty).foldl (fun s a => proceed s c a.n) s
  settleFences s c

/-- An access taken out of the tracker once both its parts are done (R172, R321). -/
def settleAcc (s : State) (c n : Nat) : State :=
  match (coreOf s c).acc.find? fun a => a.n == n with
  | none => s
  | some a =>
    if a.st == .sent && a.home && a.due == 0 then
      settleFences (modCore s c fun k => { k with acc := k.acc.filter fun a => a.n ≠ n }) c
    else s

end Sys2Proof.Machine
end

