-- ==== Sys2Proof/Machine/Segments.lean ====
section
/-! DEFINITION. Segment records (R457, R458): what a core records of the work it accepts. -/

namespace Sys2Proof.Machine

/-- Base and length of a core's segment buffer (SEG_BUF, R464). -/
def segBase (k : Core) : Nat := fld k.phase.segBuf.toNat 47 12 * 4096
def segLen (k : Core) : Nat := (fld k.phase.segBuf.toNat 63 56 + 1) * 2 ^ 20

/-- A directory entry of the segment buffer: item offset, item count and the three flags (R458). -/
def segEntry (off count : Nat) (valid trunc ovf : Bool) : Bytes :=
  wordsB [putFld count 32 32 + putFld off 32 0, putBit valid 0 + putBit trunc 1 + putBit ovf 2]

/-- Offset at which the items of a segment begin: 520 bytes of culture snapshot come before them. A valid
record of the same SEG_ID is overwritten in place, another one goes after the last record (log entry 12). -/
def segStart (s : State) (k : Core) (id : Nat) : Nat :=
  let e := segBase k + 16 * id
  if bitOf (hubNum s (e + 8) 8) 0 then hubNum s e 4 else k.phase.segEnd + 520

/-- A record opened on a core at a mark of segment `id` (R457). -/
def segOpen (s : State) (c id : Nat) : State :=
  let k := coreOf s c
  let off := segStart s k id
  let s := memWrite s (segBase k + 16 * id) (segEntry off 0 false false (decide (segLen k < off)))
  if segLen k < off then modCore s c fun k => { k with phase := { k.phase with recSeg := some (id, 0, off), recOvf := true } }
  else
    let s := memWrite s (segBase k + off - 520) (snapBytes k.whey.seed k.whey.ctr)
    modCore s c fun k => { k with phase := { k.phase with recSeg := some (id, 0, off), recOvf := false, segEnd := max k.phase.segEnd off } }

/-- The record of a core closed (R457). -/
def segClose (s : State) (c : Nat) (trunc : Bool) : State :=
  let k := coreOf s c
  match k.phase.recSeg with
  | none => s
  | some (id, count, _) =>
    let e := segBase k + 16 * id
    let s := memWrite s e (segEntry (hubNum s e 4) count (!k.phase.recOvf) trunc k.phase.recOvf)
    modCore s c fun k => { k with phase := { k.phase with recSeg := none, recOvf := false } }

/-- An item appended to the record of a core: kind 1 a press descriptor, 2 a chain (R458). -/
def segAppend (s : State) (c kind : Nat) (bs : Bytes) : State :=
  let k := coreOf s c
  match k.phase.recSeg with
  | none => s
  | some (id, count, off) =>
    let item := leBytes 8 (putFld bs.length 24 8 + kind) ++ padB (64 * ceilDiv bs.length 64) bs
    if k.phase.recOvf then s
    else if segLen k < off + item.length then
      let e := segBase k + 16 * id
      modCore (memWrite s e (segEntry (hubNum s e 4) count false false true)) c fun k => { k with phase := { k.phase with recOvf := true } }
    else
      let s := memWrite s (segBase k + off) item
      modCore s c fun k =>
        { k with phase := { k.phase with recSeg := some (id, count + 1, off + item.length), segEnd := max k.phase.segEnd (off + item.length) } }

/-- A press descriptor accepted for the job context: its mark and its place in the record (R457). -/
def segPress (s : State) (c : Nat) (ws : List Dword) : State :=
  let bs := wordsB (ws.map (·.toNat))
  let id := dField ws 0 63 56
  let live := (coreOf s c).phase.recSeg
  match dField ws 0 13 12 with
  | 1 => segOpen (segClose s c true) c id
  | 2 =>
    let s := segAppend s c 1 bs
    match live with
    | some r => if r.1 = id then segClose s c false else s
    | none => s
  | _ => segAppend s c 1 bs

end Sys2Proof.Machine
end

