-- ==== Sys2Proof/Machine/Press.lean ====
section
/-! DEFINITION. The press of a core: issue and its checks (R102 to R118), stationary tiles (R119 to
R123), rows and outputs (R124, R91), re-runs (R92, R93), batches (R126 to R129) and completion (R125,
R131, R271). -/

namespace Sys2Proof.Machine

/-- `n` 64-bit words of memory. -/
def rdWords (s : State) (a n : Nat) : List Dword := (List.range n).map fun i => BitVec.ofNat 64 (rdNum s (a + 8 * i) 8)

/-! ### Descriptors -/

/-- Pieces of a format (R109). -/
def fmtPieces (f : Nat) : Nat := match f with | 2 => 2 | 3 => 3 | _ => 1

/-- The pass list of a descriptor: streaming and stationary piece codes (R57, R110). -/
def dPasses (ws : List Dword) : List (Nat × Nat) :=
  match dField ws 1 41 40 with
  | 0 => (List.range (dField ws 1 39 36)).map fun i =>
      (dField ws 1 (4 * i + 3) (4 * i + 2), dField ws 1 (4 * i + 1) (4 * i))
  | 1 => [(0, 0)]
  | 2 => [(0, 0), (0, 1)]
  | _ => [(0, 0), (0, 1), (1, 0)]

def dSFmt (ws : List Dword) : Nat := dField ws 0 19 16
def dWFmt (ws : List Dword) : Nat := dField ws 0 23 20

/-- Element size in bytes for the alignment test of R117, 1 for C4. -/
def alignSize (f : Nat) : Nat := match f with | 2 => 2 | 3 => 4 | _ => 1

/-- Whether a condition of R117 other than that on the descriptor offset holds. -/
def descBad (ws : List Dword) : Bool :=
  let sf := dSFmt ws
  let wf := dWFmt ws
  let mode := dField ws 1 41 40
  let cnt := dField ws 1 39 36
  let ps := dPasses ws
  dField ws 0 7 0 != 4 || decide (3 < sf) || decide (5 < wf) || dField ws 0 13 12 == 3 ||
  decide ((if dChed ws then 256 else 128) < dField ws 6 39 32 + dSRows ws) ||
  (if mode = 0 then
    cnt == 0 || decide (9 < cnt) || ps.any (fun p => decide (fmtPieces sf ≤ p.1) || decide (fmtPieces wf ≤ p.2)) ||
      decide (ps.eraseDups.length < ps.length)
  else sf != 2 || wf != 2 || cnt != 0) ||
  (dField ws 4 25 25 == 1 && sf == 3) || (dField ws 4 25 25 == 0 && sf == 1) ||
  (dField ws 5 25 25 == 1 && wf == 3) || (dField ws 5 25 25 == 0 && wf == 1) ||
  dField ws 2 24 0 % alignSize sf != 0 || dField ws 2 56 32 % alignSize sf != 0 ||
  dField ws 3 24 0 % alignSize wf != 0 || dField ws 3 56 32 % alignSize wf != 0

/-- What MXISSUE finds at a descriptor offset (R106): a status that it writes to td, a fault, or the words. -/
inductive DescCheck where
  | refuse (st : Status)
  | fault (st : Status)
  | ok (ws : List Dword)
  deriving DecidableEq, Repr

/-- The tests of R106 from step 3 on, on words that have been read. -/
def checkWords (s : State) (c : Nat) (ws : List Dword) : DescCheck :=
  if descBad ws then .refuse .descInvalid
  else if ((coreOf s c).press.stat.toNat).testBit 6 then .refuse .pressFault
  else if !fullService s && !((dSFmt ws == 2 || dSFmt ws == 3) && (dWFmt ws == 2 || dWFmt ws == 3)) then .refuse .earlyService
  else if (dRegions ws).any fun r => decide (spadSize < r.1 + r.2) then .fault .addressFault
  else .ok ws

/-- The tests of R106 in their order; a descriptor that meets poison faults (R296). -/
def checkDesc (s : State) (c off : Nat) : DescCheck :=
  if off % 64 ≠ 0 then .refuse .descInvalid
  else if spadSize < off + 64 then .fault .addressFault
  else if isBad s (spadBase c + off) 64 then .fault .memPoison
  else checkWords s c (rdWords s (spadBase c + off) 8)

/-! ### Batches (R126 to R128) -/

/-- Whether an entry matches a batch head (R126). -/
def batchMatch (h e : List Dword) : Bool :=
  dField h 0 10 10 == 1 && dField e 0 10 10 == 1 && dField e 0 11 11 == 0 && dField e 0 13 12 == 0 &&
  dSFmt h == dSFmt e && dWFmt h == dWFmt e && dChed h == dChed e && dARows h == dARows e && dACols h == dACols e &&
  dField h 1 41 40 == dField e 1 41 40 && dField h 1 39 36 == dField e 1 39 36 && dPasses h == dPasses e &&
  dField h 4 25 25 == dField e 4 25 25 && dTag h 0 == dTag e 0

/-- Whether the accumulator rows of two descriptors overlap. -/
def accOverlap (a b : List Dword) : Bool :=
  let x := accSpan a
  let y := accSpan b
  decide (x.1 < y.1 + y.2) && decide (y.1 < x.1 + x.2)

/-- The entries that a batch draws from the queue, and those that stay (R127). -/
def drawMembers (head : PressEntry) : List PressEntry → List PressEntry → List PressEntry → List PressEntry × List PressEntry
  | members, stay, [] => (members, stay)
  | members, stay, e :: rest =>
    let mark := (head :: stay).any fun x => dField x.words 0 13 12 != 0
    if !mark && members.length < 128 && batchMatch head.words e.words &&
        !(members ++ stay).any fun x => accOverlap x.words e.words then
      drawMembers head (members ++ [e]) stay rest
    else drawMembers head members (stay ++ [e]) rest

/-- Streaming rows of a list of descriptors. -/
def rowTotal (es : List PressEntry) : Nat := (es.map fun e => dSRows e.words).sum

/-- The place of the run that began last, which alone can gather. -/
def lastRun (p : Press) : Nat := p.runs.length - 1

/-- The run at a place replaced. -/
def setRun (p : Press) (i : Nat) (r : PressRun) : Press := { p with runs := lset p.runs i r }

/-- A gathering batch draws its members and closes when a condition of R128 other than WAIT holds. R127 gives no
rate of intake: every entry that matches is drawn before FILL is tested (DESIGN CHOICE, log entry 98). -/
def gatherBatch (k : Core) : Core :=
  match k.press.runs[lastRun k.press]? with
  | none => k
  | some r =>
    if !r.gather then k
    else
      match r.members with
      | [] => k
      | h :: _ =>
        let d := drawMembers h r.members [] k.press.queue
        let closed := decide (r.fill ≤ rowTotal d.1) || decide (128 ≤ d.1.length) || decide (128 ≤ pressDepth k)
        let r := { r with members := d.1, hits := d.1.map fun _ => 0, gather := !closed }
        { k with press := setRun { k.press with queue := d.2 } (lastRun k.press) r }

/-- A run of some members. -/
def newRun (es : List PressEntry) (gather : Bool) (fill wait : Nat) : PressRun :=
  { members := es, gather := gather, fill := fill, wait := wait, pass := 0, entered := 0, ready := false, flight := [], failed := [],
    rerun := none, dead := false, poison := false, nanSeen := [], hits := es.map fun _ => 0, tilePoison := false }

/-! ### Issue (R102 to R106) -/

/-- A descriptor accepted: copied into the queue with the next sequence number (R102, R105). Its segment mark acts
here, where R457 has it, and does nothing more at the completion with which it travels (R144); a mark of a context
that does not run in the job is ignored (DEDUCED, log entry 99). -/
def acceptPress (s : State) (c : Nat) (ws : List Dword) (off ctx blk : Nat) (launch : Nat × Nat) (replay : Bool) : State :=
  let s := if !replay && isJobCtx s ctx then segPress s c ws else s
  modCore (overrun s 0 (coreOf s c).press.wake) c fun k =>
    let e : PressEntry :=
      { words := ws, off := off, seq := k.press.seq, n := k.isn, ctx := ctx, blk := blk, launch := launch, replay := replay }
    gatherBatch { k with
      isn := k.isn + 1
      press := { k.press with queue := k.press.queue ++ [e], seq := k.press.seq + 1, wake := k.press.wake || k.press.stopped } }

/-- Result of an issue instruction in td and pd of every active thread (R102, R227). -/
def issueResult (x : Issue) (i : Insn) (v : Nat) (ok : Bool) : Group :=
  x.act.foldl (fun grp l => setPred (setReg grp l (iDst i) v) l (iMod i % 8) ok) x.grp

/-- MXISSUE (R102, R205). -/
def execMxissue (c g : Nat) (i : Insn) (s : State) : Res :=
  issue s c g (unitForm i) i fun x =>
    if x.act.isEmpty then .next (advance s x x.grp)
    else
      let off := reg x.grp (lowest x) (iA i)
      if descPending x.k c off 64 then .next s
      else if !mayTake x.k.press.stall g (128 - pressDepth x.k) then
        .next (modCore s c fun k => { k with press := { k.press with stall := if k.press.stall.contains g then k.press.stall else k.press.stall ++ [g] } })
      else
        let s := modCore s c fun k => { k with press := { k.press with stall := k.press.stall.filter fun h => h ≠ g } }
        match checkDesc s c off with
        | .fault st => .next (issueFault (statusMet s st [(spadBase c + off, 64)] c (some x.blk.ctx)) x st)
        | .refuse st => .next (advance s x (issueResult x i st.code false))
        | .ok ws =>
          let s := advance s x (issueResult x i x.k.press.seq.toNat true)
          .next (acceptPress s c ws off x.blk.ctx x.grp.blk x.blk.launch false)

/-- Whether a completion counter has reached a value (R132). -/
def counterReached (cc : Map Word) (n v : Nat) : Bool := decide (subMod 32 (mget cc 0 n).toNat v < 2 ^ 31)

/-- MXWAIT (R132). -/
def execMxwait (c g : Nat) (i : Insn) (s : State) : Res :=
  issue s c g (srcForm i) i fun x =>
    if x.act.isEmpty then .next (advance s x x.grp)
    else if counterReached x.k.press.cc (iMod i % 64) (reg x.grp (lowest x) (iA i)) then .next (advance s x x.grp)
    else .next (waitPath s x x.grp)

/-! ### The running descriptor -/

/-- The members' rows in member order: member index and streaming row (R129). -/
def runRows (r : PressRun) : List (Nat × Nat) :=
  (r.members.zip (List.range r.members.length)).flatMap fun em => (List.range (dSRows em.1.words)).map fun j => (em.2, j)

/-- The rows that enter in each pass: all, or the row that is re-run (R92). -/
def liveRows (r : PressRun) : List Nat :=
  match r.rerun with
  | some row => [row]
  | none => List.range (rowTotal r.members)

/-- The descriptor that gives the run its passes and its tile. -/
def runWords (r : PressRun) : List Dword := match r.members with | e :: _ => e.words | [] => []

/-- The tile that a pass of the run needs. -/
def passTag (r : PressRun) (p : Nat) : TileTag :=
  let ws := runWords r
  dTag ws ((dPasses ws).getD p (0, 0)).2

/-- Number of passes. -/
def passCount (r : PressRun) : Nat := (dPasses (runWords r)).length

/-- Whether pass `p` runs on the tile that the pass before it left active (R119); a re-run loads anew
for every pass (R92). -/
def samePiece (r : PressRun) (p : Nat) : Bool :=
  p != 0 && r.rerun.isNone && passTag r p == passTag r (p - 1)

/-- Whether a descriptor's first pass skips its load on an active tile (R123). -/
def skipsLoad (tile : Option TileTag) (ws : List Dword) : Bool :=
  dField ws 0 11 11 == 0 && tile == some (dTag ws ((dPasses ws).getD 0 (0, 0)).2)

/-- PRESS_CO_CTL as the next batch head finds it: a write takes effect there (R136). -/
def headCtl (p : Press) : Word := p.coNext.getD p.coCtl

/-- A run of the head of the queue, or of a batch that it opens, behind the run whose rows leave the array. A
coalescing descriptor is a batch head, at which a written PRESS_CO_CTL takes effect (R127, R128, R136). -/
def startRun (k : Core) (e : PressEntry) (rest : List PressEntry) (gather : Bool) : Core :=
  let p := if dField e.words 0 10 10 = 1 then { k.press with coCtl := headCtl k.press, coNext := none } else k.press
  let skips := skipsLoad p.tile e.words
  let bad := match p.runs[lastRun p]? with | some r => skips && r.tilePoison | none => false
  let r := { newRun [e] gather (fld p.coCtl.toNat 25 16) (fld p.coCtl.toNat 15 0) with ready := skips, tilePoison := bad }
  { k with press := { p with runs := p.runs ++ [r], queue := rest } }

/-- Whether an entry opens a batch at the head of the queue (R127, R128). -/
def opensBatch (k : Core) (e : PressEntry) : Bool := dField e.words 0 10 10 == 1 && bitOf (headCtl k.press).toNat 31

/-- Whether every row of a run, or of its re-run, has entered the array in its last pass (R92, R121). -/
def allEntered (r : PressRun) : Bool :=
  !r.gather && r.ready && r.pass + 1 == passCount r && r.entered == (liveRows r).length

/-- Whether every row of every pass has entered and left the array. -/
def rowsDone (r : PressRun) : Bool := allEntered r && r.flight.isEmpty && r.rerun.isNone

/-- Whether a run ends at its completion whatever rows it has left: a second mismatch, or poison (R93, R296). -/
def ends (r : PressRun) : Bool := r.dead || r.poison

/-- Whether no row of a run has entered. -/
def fresh (r : PressRun) : Bool := r.pass == 0 && r.entered == 0 && r.flight.isEmpty && r.rerun.isNone && !ends r

/-- Whether a re-run of a row comes before anything new: the other rows of its run have left the array (t0 of R92), or
it runs and has rows to enter or another failed row behind it. -/
def rerunDue (r : PressRun) : Bool :=
  !ends r &&
  match r.rerun with
  | some row => !allEntered r || r.failed.any fun f => f.1 != row
  | none => rowsDone r && !r.failed.isEmpty

/-- Whether the head of the queue may begin: nothing runs, or the last row of what began last has entered, and no re-run
comes first (R92, R107, R121). -/
def mayBegin (p : Press) : Bool :=
  !p.runs.any rerunDue && match p.runs[lastRun p]? with | some r => allEntered r && !ends r | none => true

/-- The place of the run whose tiles and rows come next: a re-run that has rows to enter, or the run that began last
(R92, R121). -/
def leadRun (p : Press) : Nat :=
  (p.runs.findIdx? fun r => r.rerun.isSome && !allEntered r && !ends r).getD (lastRun p)

/-- The head of the queue begins to run, where it may and opens no batch (R107, R121, R128). -/
def beginRun (k : Core) : Core :=
  match k.press.queue with
  | e :: rest => if mayBegin k.press && !opensBatch k e then startRun k e rest false else k
  | [] => k

/-- The next tile that must be loaded, and the entry that it is for (R122). -/
def nextLoad (k : Core) : Option (TileTag × List PressEntry) :=
  let first (tile : Option TileTag) : Option (TileTag × List PressEntry) :=
    match k.press.queue with
    | e :: _ => if skipsLoad tile e.words then none else some (dTag e.words ((dPasses e.words).getD 0 (0, 0)).2, [e])
    | [] => none
  let own (r : PressRun) : Option (TileTag × List PressEntry) :=
    if !r.ready then some (passTag r r.pass, r.members)
    else ((List.range (passCount r)).find? fun p => decide (r.pass < p) && !samePiece r p).map fun p => (passTag r p, r.members)
  match k.press.runs[leadRun k.press]?, k.press.runs[lastRun k.press]? with
  | some r, some z =>
    match own r, own z with
    | some t, _ => some t
    | none, some t => some t
    | none, none => first (if r.rerun.isSome then none else some (passTag z (passCount z - 1)))
  | _, _ => first k.press.tile

/-- Whether some entries wait for earlier work of their core (R173). -/
def entriesHeld (k : Core) (c : Nat) (es : List PressEntry) : Bool :=
  es.any fun e => earlierHeld k c e.n (pressRngs e.words) true

/-- Whether the press clock runs: not stopped, not in a relock, its PLL locked (R541, R542, R544). -/
def pressRuns (s : State) (c : Nat) : Bool :=
  !(coreOf s c).press.stopped && !(s.clk.relock && decide (c < 64)) && !pllDown s (8 + c / 64)

/-- The press of a core changed. -/
def modPress (s : State) (c : Nat) (f : Press → Press) : State := modCore s c fun k => { k with press := f k.press }

/-- A wake request at the gate of a stopped press (R540, R541). -/
def pressWake (s : State) (c : Nat) : State :=
  modPress (overrun s 0 (coreOf s c).press.wake) c fun p => { p with wake := p.wake || p.stopped }

/-- A command of a press whose clock runs; while it does not, nothing happens (R541, R542, R544). -/
def onPress (s : State) (c : Nat) (r : Res) : Res := onCore c (if pressRuns s c then r else .next s)

/-- PRESS_LOAD_START (R122). A tile in the shadow that nothing needs is abandoned. -/
def execPressLoadStart (c : Nat) (s : State) : Res :=
  onCore c (
    let k := coreOf s c
    match nextLoad k with
    | none => .next s
    | some (t, es) =>
      let free := match k.press.shadow with | none => true | some sh => sh.tag != t
      if pressRuns s c && free && !entriesHeld k c es then
        .next (pressUses (modPress s c fun p => { p with shadow := some { tag := t, full := false, poison := false } }) c)
      else .next s)

/-- What a stationary load reads: the rows of the tile, its scales and its codebook. -/
def tileParts (c : Nat) (t : TileTag) : List (Nat × Nat) :=
  let base := spadBase c
  (List.range t.aRows).flatMap (fun j =>
    (base + t.wOff + j * t.wStride, rowBytes t.wFmt t.aCols) ::
      (if t.wScaled then [(base + t.sclOff + j * t.sclStride, ceilDiv t.aCols 32)] else [])) ++
    (if t.wFmt = 4 then [(base + t.cbOff, 16)] else if t.wFmt = 5 then [(base + t.cbOff, 256)] else [])

/-- Whether a stationary load meets poison, or a parity error on the input path (R295, R296). -/
def tileBad (s : State) (c : Nat) (t : TileTag) : Bool :=
  (coreOf s c).press.parity || (tileParts c t).any fun x => isBad s x.1 x.2

/-- PRESS_LOAD_END (R120). -/
def execPressLoadEnd (c : Nat) (s : State) : Res :=
  onPress s c (
    match (coreOf s c).press.shadow with
    | none => .next s
    | some sh => .next (modPress s c fun p => { p with shadow := some { sh with full := true, poison := tileBad s c sh.tag } }))

/-- The pass that a swap makes ready: the one in hand, or the next once every row has entered (R121). -/
def swapPass (r : PressRun) : Option Nat :=
  if r.gather then none
  else if !r.ready then some r.pass
  else if r.entered = (liveRows r).length && decide (r.pass + 1 < passCount r) && !samePiece r (r.pass + 1) then some (r.pass + 1)
  else none

/-- Whether a run may go on: nothing of it has entered only where no re-run comes before it (R92, R107). -/
def mayEnter (p : Press) (r : PressRun) : Bool := !(fresh r && p.runs.any rerunDue)

/-- Whether a row of an earlier run that is still in the array, or is to run again, writes accumulator rows that a run
writes: their sums come first (R73, R92, R107; DEDUCED, log entry 98). -/
def accBehind (p : Press) (i : Nat) (r : PressRun) : Bool :=
  (p.runs.take i).any fun b =>
    let rows := runRows b
    ((b.flight.map Prod.snd) ++ b.failed.map Prod.fst).any fun row =>
      let mj := rows.getD row (0, 0)
      match b.members[mj.1]? with
      | some m =>
        let d := dDestRow m.words mj.2
        r.members.any fun e => decide (d.1 < (accSpan e.words).1 + (accSpan e.words).2) && decide ((accSpan e.words).1 < d.1 + d.2)
      | none => false

/-- PRESS_SWAP (R121). A re-run leaves the tag invalid (R92, R123). -/
def execPressSwap (c : Nat) (s : State) : Res :=
  onCore c (
    let k := beginRun (coreOf s c)
    let i := leadRun k.press
    match k.press.runs[i]?, k.press.shadow with
    | some r, some sh =>
      match swapPass r with
      | none => .next s
      | some p =>
        if pressRuns s c && sh.full && sh.tag == passTag r p && mayEnter k.press r then
          let tile := if r.rerun.isSome then none else some sh.tag
          let r := { r with pass := p, entered := 0, ready := true, tilePoison := sh.poison }
          .next (setCore s c { k with press := { setRun k.press i r with tile := tile, shadow := none } })
        else .next s
    | _, _ => .next s)

/-- The row that enters next: the run with its pass moved on where the next pass needs no load (R119, R124). -/
def rowNext (r : PressRun) : Option (PressRun × Nat) :=
  let rows := liveRows r
  if r.gather || !r.ready then none
  else if r.entered < rows.length then some (r, rows.getD r.entered 0)
  else if r.pass + 1 < passCount r && samePiece r (r.pass + 1) then
    some ({ r with pass := r.pass + 1, entered := 0 }, rows.getD 0 0)
  else none

/-- PRESS_ROW_ENTRY (R124). The first row of a run waits for earlier rows that its accumulator rows take up, so that
the run is never interrupted by a re-run of one of them (R107). -/
def execPressRowEntry (c : Nat) (s : State) : Res :=
  onCore c (
    let k := beginRun (coreOf s c)
    let i := leadRun k.press
    match k.press.runs[i]? with
    | none => .next s
    | some r =>
      let held := !mayEnter k.press r || (fresh r && accBehind k.press i r)
      match rowNext r with
      | none => .next s
      | some (r, row) =>
        if pressRuns s c && !held && !ends r && !entriesHeld k c r.members && r.flight.all fun f => f.2 != row then
          let r := { r with entered := r.entered + 1, flight := r.flight ++ [(r.pass, row)] }
          .next (pressUses (setCore s c { k with press := setRun k.press i r }) c)
        else .next s)

/-! ### Outputs -/

/-- Bits of element `i` of a row at scratchpad offset `off` (R53, R111). -/
def elemBits (s : State) (c fmt off i : Nat) : Nat :=
  let a := spadBase c + off
  match fmt with
  | 2 => rdNum s (a + 2 * i) 2
  | 3 => rdNum s (a + 4 * i) 4
  | 4 => (rdByte s (a + i / 2)).toNat / 16 ^ (i % 2) % 16
  | _ => (rdByte s (a + i)).toNat

/-- An element through the press input path: a code replaced by its codebook entry (R54, R114). -/
def elemIn (s : State) (c fmt off i cb : Nat) : Nat :=
  let v := elemBits s c fmt off i
  if fmt = 4 ∨ fmt = 5 then (rdByte s (spadBase c + cb + v)).toNat else v

/-- Streaming row `r` of a descriptor in one pass. -/
def streamRow (s : State) (c : Nat) (ws : List Dword) (r piece : Nat) : List PElem :=
  let f := dSFmt ws
  let off := dField ws 2 24 0 + r * dField ws 2 56 32
  let scl := spadBase c + dField ws 4 24 0 + r * dField ws 4 56 32
  (List.range (dSLen ws)).map fun i =>
    pElem f piece (elemBits s c f off i) (if dScaledS ws then some (rdByte s (scl + i / 32)).toNat else none)

/-- Stationary element (row j, column i) of a descriptor in one pass. -/
def statElem (s : State) (c : Nat) (ws : List Dword) (j i piece : Nat) : PElem :=
  let f := dWFmt ws
  let off := dField ws 3 24 0 + j * dField ws 3 56 32
  let scl := spadBase c + dField ws 5 24 0 + j * dField ws 5 56 32
  pElem f piece (elemIn s c f off i (dField ws 6 24 0))
    (if dScaledW ws then some (rdByte s (scl + i / 32)).toNat else none)

/-- The stationary elements that meet the streaming row at output `o`, in term order (R112). -/
def statLine (s : State) (c : Nat) (ws : List Dword) (o piece : Nat) : List PElem :=
  if dChed ws then (List.range (dACols ws)).map fun j => statElem s c ws o j piece
  else (List.range (dARows ws)).map fun j => statElem s c ws j o piece

/-- Outputs of a streaming row (R116). -/
def dOuts (ws : List Dword) : Nat := if dChed ws then dARows ws else dACols ws

/-- The outputs of streaming row `r` in pass `p`, with the upsets of `e` (R72 to R80, R87). -/
def rowOutputs (s : State) (c : Nat) (ws : List Dword) (p r : Nat) (e : PressErr) : List PressOut :=
  let pc := (dPasses ws).getD p (0, 0)
  let str := streamRow s c ws r pc.1
  let dest := (dDestRow ws r).1
  let k := coreOf s c
  (List.range (dOuts ws)).map fun o =>
    let add := if p = 0 && dField ws 0 8 8 = 1 then 0 else (mget k.accMem 0 (dest + o)).toNat
    pressOutput (str.zip (statLine s c ws o pc.2)) add ((e.outs.lookup o).getD 0)

/-- Whether the cross check of a row passes (R88): skipped when a product left the range. -/
def crossOk (s : State) (c : Nat) (ws : List Dword) (p r : Nat) (outs : List PressOut) (cross : Int) : Bool :=
  if outs.any fun o => o.range.isSome then true
  else
    let pc := (dPasses ws).getD p (0, 0)
    let str := (streamRow s c ws r pc.1).map resElem
    let rw := (List.range (dSLen ws)).map fun j =>
      ((List.range (dOuts ws)).map fun o =>
        resElem (if dChed ws then statElem s c ws o j pc.2 else statElem s c ws j o pc.2)).sum
    let lhs : Int := (((str.zip rw).map fun x => x.1 * x.2).sum : Nat)
    let rhs : Int := ((outs.map (·.rho)).sum : Nat)
    ((lhs + cross - rhs) % (resPrime : Int)) == 0

/-- What a streaming row reads of scratchpad: its data and its scales. -/
def rowParts (c : Nat) (ws : List Dword) (r : Nat) : List (Nat × Nat) :=
  let base := spadBase c
  (base + dField ws 2 24 0 + r * dField ws 2 56 32, rowBytes (dSFmt ws) (dSLen ws)) ::
    if dScaledS ws then [(base + dField ws 4 24 0 + r * dField ws 4 56 32, ceilDiv (dSLen ws) 32)] else []

/-- Whether the reads of a row meet poison: streaming data, scales, addends, a parity error on the input path (R295,
R296). -/
def rowBad (s : State) (c : Nat) (ws : List Dword) (p r : Nat) : Bool :=
  let k := coreOf s c
  let dest := (dDestRow ws r).1
  k.press.parity || (rowParts c ws r).any (fun x => isBad s x.1 x.2) ||
  (!(p == 0 && dField ws 0 8 8 == 1) && k.accBad.any fun u => decide (2 * u < dest + dOuts ws) && decide (dest < 2 * u + 2))

/-- The codes of a codebook that are extreme (R271): entry against the largest bits 6:0 other than 0x80. -/
def extremeMag (s : State) (c : Nat) (ws : List Dword) : Option Nat :=
  let n := if dWFmt ws = 4 then 16 else 256
  let es := ((List.range n).map fun i => (rdByte s (spadBase c + dField ws 6 24 0 + i)).toNat).filter fun b => b ≠ 0x80
  if es.isEmpty then none else some (es.foldl (fun m b => max m (b % 128)) 0)

/-- Saturation hits of a streaming row in pass 0 (R271). -/
def rowHits (s : State) (c : Nat) (ws : List Dword) (r : Nat) : Nat :=
  if dWFmt ws ≠ 4 && dWFmt ws ≠ 5 then 0
  else match extremeMag s c ws with
    | none => 0
    | some m =>
      let str := (streamRow s c ws r 0).map fun e => match e.num with | .fin _ v _ => v != 0 | _ => true
      let code (j o : Nat) : Nat :=
        let off := dField ws 3 24 0 + (if dChed ws then o else j) * dField ws 3 56 32
        elemIn s c (dWFmt ws) off (if dChed ws then j else o) (dField ws 6 24 0)
      let ext (b : Nat) : Bool := b != 0x80 && b % 128 == m
      ((List.range (dOuts ws)).map fun o =>
        ((str.zip (List.range str.length)).filter fun x => x.1 && ext (code x.2 o)).length).sum

/-! ### The NaN trap (R244, R245, R250, R251) -/

/-- An event presented to the trap: counted, and captured while VALID is 0. -/
def trapEvent (k : Core) (log0 log1 : Nat) : Core :=
  let w := k.whey
  let w := { w with nanCnt := BitVec.ofNat 32 (satAdd 32 w.nanCnt.toNat 1), stat := w.stat ||| 0x10 }
  { k with whey := if bitOf w.log0.toNat 63 then w else { w with log0 := BitVec.ofNat 64 log0, log1 := BitVec.ofNat 64 log1 } }

/-- A press source at the trap (R80, R250). -/
def pressEvent (k : Core) (e : PressEntry) (cause term out pass : Nat) : Core :=
  trapEvent k
    (putBit true 63 + putFld cause 4 58 + putFld term 8 50 + putFld out 8 42 + putFld pass 4 38 + putFld e.off 25 0)
    (putFld e.seq.toNat 16 48)

/-! ### Writing a row -/

/-- Elements of accumulator memory or of the operand cache written; a unit that the run of elements
covers whole loses its poison (R296). -/
def putElems (m : Map Word) (bad : List Nat) (el : Nat) (vs : List Nat) : Map Word × List Nat :=
  ((vs.zip (List.range vs.length)).foldl (fun m x => mset m 0 (el + x.2) (BitVec.ofNat 32 x.1)) m,
    bad.filter fun u => !(decide (el ≤ 2 * u) && decide (2 * u + 2 ≤ el + vs.length)))

/-- The first product out of range among the outputs of a row: term, output, kind (R98). -/
def firstRange (outs : List PressOut) : Option (Nat × Nat × Bool) :=
  (outs.zip (List.range outs.length)).foldl
    (fun acc x =>
      match x.1.range, acc with
      | none, _ => acc
      | some (t, k), none => some (t, x.2, k)
      | some (t, k), some (t', _, _) => if t < t' then some (t, x.2, k) else acc)
    none

/-- The NaN sources of a row that have not been handed over, each with its cause, term and output, in the order of
R98: term, then output (R80, R245). -/
def rowSources (r : PressRun) (row : Nat) (outs : List PressOut) : List (Nat × Nat × Nat) :=
  let found := (outs.zip (List.range outs.length)).filterMap fun x =>
    match x.1.src with
    | some (cause, term) => if r.nanSeen.contains (row, x.2) then none else some (cause, term, x.2)
    | none => none
  found.mergeSort fun a b => decide (a.2.1 < b.2.1) || (a.2.1 == b.2.1 && decide (a.2.2 ≤ b.2.2))

/-- What a clean row leaves: outputs, flags, PRESS_SR_LOG, NaN sources, hits (R79, R80, R97, R98, R271). The log
captures in the order in which rows are written: a descriptor that was drawn forward, or a row written before the
re-run of an earlier one, comes first (DESIGN CHOICE, log entry 98). -/
def writeRow (k : Core) (i : Nat) (r : PressRun) (m : Nat) (e : PressEntry) (p row j : Nat) (outs : List PressOut) (hits : Nat) : Core :=
  let acc := putElems k.accMem k.accBad (dDestRow e.words j).1 (outs.map (·.val))
  let k := { k with accMem := acc.1, accBad := acc.2 }
  let range := firstRange outs
  let k := k.pressFlag (putBit range.isSome 0 + putBit (outs.any (·.ovf)) 1 + putBit (outs.any (·.nan)) 2 + putBit (outs.any (·.inx)) 3)
  let k := match range with
    | some (t, o, kind) =>
      if bitOf k.press.srLog.toNat 63 then k
      else
        let v := putBit true 63 + putBit kind 62 + putFld p 4 58 + putFld t 8 50 + putFld o 8 42 + putFld e.seq.toNat 16 25 + putFld e.off 25 0
        { k with press := { k.press with srLog := BitVec.ofNat 64 v } }
    | none => k
  let nans := rowSources r row outs
  let k := nans.foldl (fun k x => pressEvent k e x.1 x.2.1 x.2.2 p) k
  let r := { r with
    nanSeen := r.nanSeen ++ nans.map fun x => (row, x.2.2)
    hits := if p = 0 then lset r.hits m (r.hits.getD m 0 + hits) else r.hits }
  { k with press := setRun k.press i r }

/-- PRESS_FLT_CNT of the physical core of c with a mismatch counted, a second one in both halves (R100). -/
def countMismatch (s : State) (c : Nat) (second : Bool) : State :=
  let p := physOf s c
  let v := (mget s.fltCnt 0 p).toNat
  let v' := satAdd 16 (fld v 15 0) 1 + (if second then satAdd 16 (fld v 31 16) 1 else fld v 31 16) * 65536
  { s with fltCnt := mset s.fltCnt 0 p (BitVec.ofNat 32 v') }

/-- SOURCE of a core's vat in a fault record (R557). -/
def vatSource (c : Nat) : Nat := c / 64 + 1

/-- A checksum mismatch of a row (R91, R93): the log, the counts and the ATTN event; `out` is the lowest
failing output, none when only the cross check failed. -/
def mismatch (s : State) (c : Nat) (e : PressEntry) (p row : Nat) (out : Option Nat) (second : Bool) : State :=
  let s := countMismatch s c second
  let s := modCore s c fun k =>
    let log := k.press.fltLog.toNat
    let here := putBit out.isNone 61 + putFld p 4 57 + putFld (out.getD 0) 8 49 + putFld e.seq.toNat 16 25 + putFld e.off 25 0
    let same := fld log 60 57 == p && fld log 40 25 == e.seq.toNat % 65536 && fld log 24 0 == e.off && k.press.fltRow == row
    let row := if bitOf log 63 then k.press.fltRow else row
    let log := if !bitOf log 63 then putBit true 63 + putBit second 62 + here
      else if second && same then mergeBits log (2 ^ 62) (2 ^ 62) else log
    let k := { k with press := { k.press with fltLog := BitVec.ofNat 64 log, fltRow := row } }
    k.pressFlag (16 + putBit second 5 + putBit second 6)
  attn s { cls := if second then 5 else 4, source := vatSource c, d0 := BitVec.ofNat 64 (c + 256 * physOf s c) }

/-- The lowest output whose check fails. -/
def failOut (outs : List PressOut) : Option Nat :=
  ((outs.zip (List.range outs.length)).find? fun x => !x.1.ok).map Prod.snd

/-- The re-run row is done: the run is where it was after its last row (R92). -/
def endRerun (r : PressRun) (row : Nat) : PressRun :=
  let r := { r with failed := r.failed.filter (fun f => f.1 ≠ row), rerun := none }
  { r with entered := (liveRows r).length }

/-- The place of the run whose row has been longest in the array. -/
def oldestRow (p : Press) : Nat := (p.runs.findIdx? fun r => !r.flight.isEmpty).getD 0

/-- PRESS_OUTPUT_WRITE: the oldest row in the array leaves it (R91, R92, R93, R296). What has begun behind goes on
(R107). -/
def execPressOutputWrite (c : Nat) (e : PressErr) (s : State) : Res :=
  onPress s c (
    let k := coreOf s c
    let i := oldestRow k.press
    match k.press.runs[i]? with
    | none => .next s
    | some r =>
      match r.flight with
      | [] => .next s
      | (p, row) :: rest =>
        let mj := (runRows r).getD row (0, 0)
        match r.members[mj.1]? with
        | none => .next s
        | some m =>
          let ws := m.words
          let last := p + 1 == passCount r
          let off : PressRun := { r with flight := rest }
          let off := if r.rerun == some row && last then endRerun off row else off
          if r.poison || (r.tilePoison && p == r.pass) || rowBad s c ws p mj.2 then
            let parts := rowParts c ws mj.2 ++ (if r.tilePoison then tileParts c (passTag r p) else [])
            let s := if r.poison || k.press.parity then s else poisonMet s (firstBad s parts) c (some m.ctx)
            .next (modPress s c fun x => setRun x i { r with flight := rest, poison := true })
          else if r.rerun.isNone && r.failed.any fun f => f.1 == row then
            .next (modPress s c fun x => setRun x i off)
          else
            let outs := rowOutputs s c ws p mj.2 e
            let bad := outs.any fun o => !o.ok
            if bad || !crossOk s c ws p mj.2 outs e.cross then
              let second := r.rerun.isSome
              let s := mismatch s c m p mj.2 (failOut outs) second
              let r := if second then { r with flight := [], dead := true } else { r with flight := rest, failed := r.failed ++ [(row, p)] }
              .next (modPress s c fun x => setRun x i r)
            else
              let hits := if p = 0 then rowHits s c ws mj.2 else 0
              .next (setCore s c (writeRow k i off mj.1 m p row mj.2 outs hits)))

/-- A run of which nothing has entered yet loads its first tile again after a re-run (R92, R122). -/
def reload (r : PressRun) : PressRun := if fresh r then { r with ready := false, tilePoison := false } else r

/-- PRESS_RERUN (R92): the first failed row runs again from its failed pass. Several failed rows of one descriptor
or batch run again in the order in which they failed. A run behind of which a row has entered is not interrupted: the
re-run comes after its last output (R107; DESIGN CHOICE, log entry 98). -/
def execPressRerun (c : Nat) (s : State) : Res :=
  onPress s c (
    let p := (coreOf s c).press
    match p.runs.findIdx? fun r => !r.failed.isEmpty && !ends r with
    | none => .next s
    | some i =>
      match p.runs[i]? with
      | some r =>
        match r.failed with
        | (row, pass) :: _ =>
          if rowsDone r && (p.runs.drop (i + 1)).all fun b => fresh b || rowsDone b || (ends b && b.flight.isEmpty) then
            let runs := p.runs.map reload
            let r := { r with rerun := some row, pass := pass, entered := 0, ready := false }
            .next (modPress s c fun x => setRun { x with tile := none, shadow := none, runs := runs } i r)
          else .next s
        | [] => .next s
      | none => .next s)

/-! ### Completion (R125, R131, R271) -/

/-- Hits added to the saturation table of a core (R271, R275). -/
def addHits (p : Press) (cb hits : Nat) : Press :=
  let holds (n : Nat) : Bool := let v := (mget p.sat 0 n).toNat; bitOf v 63 && fld v 56 32 == cb
  let put (n h : Nat) : Press :=
    { p with sat := mset p.sat 0 n (BitVec.ofNat 64 (putBit true 63 + putFld cb 25 32 + satAdd 32 h hits)) }
  match findBelow 32 holds with
  | some n => put n (fld (mget p.sat 0 n).toNat 31 0)
  | none =>
    match findBelow 32 fun n => !bitOf (mget p.sat 0 n).toNat 63 with
    | some n => put n 0
    | none => { p with satOther := BitVec.ofNat 32 (satAdd 32 p.satOther.toNat hits), satOvf := true }

/-- A member completes: its counter, its sequence number and its hits. -/
def completeMember (p : Press) (e : PressEntry) (hits : Nat) : Press :=
  let n := dField e.words 7 5 0
  let p := if dField e.words 7 6 6 = 1 then { p with cc := mset p.cc 0 n (mget p.cc 0 n + 1) } else p
  let p := { p with lastSeq := BitVec.ofNat 16 e.seq.toNat }
  if dWFmt e.words = 4 ∨ dWFmt e.words = 5 then addHits p (dField e.words 6 24 0) hits else p

/-- The run, where it can complete: all rows done and none failed, or it has met poison or a second mismatch. A
second mismatch completes it at once: other failed rows that wait for their re-run are not run again (R93; DESIGN
CHOICE, log entry 98). -/
def runDone (k : Core) : Option PressRun :=
  match k.press.runs with
  | [] => none
  | r :: _ => if !r.gather && r.flight.isEmpty && (ends r || (rowsDone r && r.failed.isEmpty)) then some r else none

/-- The completion of a run: members in order, ranges released, waiting writes performed (R125, R129, R140). A second
mismatch completes every member with PRESS_FAULT, which its launch keeps as its first fault (R93, R483). -/
def completeRun (s : State) (c : Nat) (r : PressRun) : State :=
  let s := modPress s c fun p =>
    let p := (r.members.zip r.hits).foldl (fun p eh => completeMember p eh.1 eh.2) p
    { p with runs := p.runs.tail, parity := false, tile := if ends r && p.runs.tail.isEmpty then none else p.tile }
  let s := if r.dead then r.members.foldl (fun s e => launchFault s e.launch .pressFault) s else s
  let s := flushHeld s
  match r.members with
  | e :: _ => if r.poison then programFault s c e.ctx e.launch .memPoison else s
  | [] => s

/-- DESCRIPTOR_COMPLETE (R125, R129). -/
def execDescriptorComplete (c : Nat) (s : State) : Res :=
  onPress s c (match runDone (coreOf s c) with | some r => .next (completeRun s c r) | none => .next s)

/-- BATCH_OPEN (R127). -/
def execBatchOpen (c : Nat) (s : State) : Res :=
  onCore c (
    let k := coreOf s c
    match k.press.queue with
    | e :: rest =>
      if mayBegin k.press && opensBatch k e && pressRuns s c then .next (setCore s c (gatherBatch (startRun k e rest true)))
      else .next s
    | [] => .next s)

/-- BATCH_WAIT_EXPIRY (R128). -/
def execBatchWaitExpiry (c : Nat) (s : State) : Res :=
  onPress s c (.next (modPress s c fun p => { p with runs := p.runs.map fun r => { r with gather := false } }))

/-- Whether a press may stop its clock: its queue empty, no load running, no wake request (R540, R541). -/
def mayStop (p : Press) : Bool :=
  p.queue.isEmpty && p.runs.isEmpty && p.writes.isEmpty && !p.wake &&
    match p.shadow with | some sh => sh.full | none => true

/-- PRESS_CLOCK_STOP (R143, R541): a press with nothing to do stops its clock. -/
def execPressClockStop (c : Nat) (s : State) : Res :=
  onCore c (if mayStop (coreOf s c).press then .next (modPress s c fun p => { p with stopped := true }) else .next s)

/-- The value that PRESS_CO_CTL stores (R136). -/
def coCtlStore (v : Word) : Word :=
  let fill := fld v.toNat 25 16
  BitVec.ofNat 32 (putBit (bitOf v.toNat 31) 31 + putFld (if fill = 0 then 1 else fill) 10 16 + fld v.toNat 15 0)

/-- A write of PRESS_CO_CTL or of a completion counter as the press takes it. That of PRESS_CO_CTL waits for the next
batch head and does not read before (R13, R131, R136). -/
def takeWrite (p : Press) (w : Option Nat × Word) : Press :=
  match w.1 with
  | none => { p with coNext := some (coCtlStore w.2) }
  | some n => { p with cc := mset p.cc 0 n w.2 }

/-- The writes that waited for the press clock taken in their order (R538, R539). -/
def takeWrites (p : Press) : Press := { p.writes.foldl takeWrite p with writes := [] }

/-- Whether the queue of 8 has no room for a write: the store waits (R539). -/
def writesFull (s : State) (c : Nat) : Bool := !pressRuns s c && decide (8 ≤ (coreOf s c).press.writes.length)

/-- A write of PRESS_CO_CTL or of a completion counter: taken while the press clock runs, else queued, with a wake request
(R539, R541). -/
def pressPut (s : State) (c : Nat) (w : Option Nat × Word) : State :=
  if pressRuns s c then modPress s c fun p => takeWrite p w
  else modPress (pressWake s c) c fun p => { p with writes := p.writes ++ [w] }

/-- A write by a program: it waits while the queue is full (R539). -/
def pressStore (s : State) (c : Nat) (w : Option Nat × Word) : Option State := if writesFull s c then none else some (pressPut s c w)

/-- The gate of a press opened, where a wake request is present: what waited for the clock is taken (R540). -/
def openGate (s : State) (c : Nat) : State :=
  if (coreOf s c).press.stopped && !(coreOf s c).press.wake then s
  else
    let s := modPress s c fun p => { p with stopped := false, wake := false }
    if pressRuns s c then modPress s c takeWrites else s

/-- PRESS_CO_CTL_WRITE (R136). -/
def execPressCoCtlWrite (c : Nat) (v : Word) (s : State) : Res := onCore c (.next ((pressStore s c (none, v)).getD s))

/-- PRESS_CC_WRITE (R131): with `inc`, the running descriptor completes in the same press cycle and the
counter holds the written value and its increments; a press whose clock does not run increments nothing. -/
def execPressCcWrite (c n : Nat) (v : Word) (inc : Bool) (s : State) : Res :=
  onCore c (onUnit 64 n (
    if inc && pressRuns s c then
      match runDone (coreOf s c) with
      | none => .next s
      | some r =>
        let m := (r.members.filter fun e => dField e.words 7 6 6 == 1 && dField e.words 7 5 0 == n).length
        .next (modPress (completeRun s c r) c fun p => { p with cc := mset p.cc 0 n (v + BitVec.ofNat 32 m) })
    else .next ((pressStore s c (some n, v)).getD s)))

/-- An entry of PRESS_SATn freed: VALID and HITS clear, CB_OFF stays (R275). -/
def satFree (p : Press) (n : Nat) : Press :=
  { p with sat := mset p.sat 0 n (BitVec.ofNat 64 (putFld (fld (mget p.sat 0 n).toNat 56 32) 25 32)) }

/-- PRESS_SAT_FREE (R275). -/
def execPressSatFree (c n : Nat) (s : State) : Res := onCore c (onUnit 32 n (.next (modPress s c fun p => satFree p n)))

end Sys2Proof.Machine
end

