-- ==== Sys2Proof/Machine/Transc.lean ====
section
/-! DEFINITION. The activation functions of R220: each is the binary32 value nearest the exact
function, formed from a fixed-point value with 400 fraction bits (UNVERIFIED, log entry 5: no input
lies so near a rounding boundary that 400 bits do not decide it). -/

namespace Sys2Proof.Machine

/-- Fraction bits of the fixed-point values. -/
def fxBits : Nat := 400

/-- One in fixed point. -/
def fxOne : Nat := 2 ^ fxBits

/-- Fixed-point product, rounded down. -/
def fxMul (a b : Nat) : Nat := (a * b) >>> fxBits

/-- Fixed-point quotient, rounded down. -/
def fxDiv (a b : Nat) : Nat := (a <<< fxBits) / b

/-- ln 2 as the sum over k of 1 / (k * 2 ^ k). -/
def fxLn2 : Nat :=
  (List.range 410).foldl (fun acc k => acc + fxOne / ((k + 1) * 2 ^ (k + 1))) 0

/-- e to a fixed-point argument in [0, 1): `n` terms of the power series. -/
def fxExpTerms : Nat → Nat → Nat → Nat → Nat
  | 0, _, _, _ => 0
  | n + 1, k, t, z => t + fxExpTerms n (k + 1) (fxMul t z / k) z

/-- e to a fixed-point argument in [0, 1). -/
def fxExp (z : Nat) : Nat := fxExpTerms 100 1 fxOne z

/-- Two to a fixed-point integer argument: fixed-point significand in [1, 2) and exponent. -/
def fxExp2 (x : Int) : Nat × Int :=
  let i := x / (fxOne : Int)
  let f := (x % (fxOne : Int)).toNat
  (fxExp (fxMul f fxLn2), i)

/-- Sum over odd k of z ^ k / k: the area hyperbolic tangent for 0 to 1/3. -/
def fxAtanhTerms : Nat → Nat → Nat → Nat → Nat
  | 0, _, _, _ => 0
  | n + 1, k, t, z2 => t / k + fxAtanhTerms n (k + 2) (fxMul t z2) z2

/-- A finite value in fixed point, cut toward zero, as an integer. -/
def fxOf (neg : Bool) (m : Nat) (e : Int) : Int :=
  let q := e + fxBits
  let v : Nat := if q ≥ 0 then m <<< q.toNat else m >>> (-q).toNat
  if neg then -(v : Int) else v

/-- A fixed-point magnitude times a power of two as binary32. -/
def fxRound (neg : Bool) (v : Nat) (e : Int) : Nat := (f32Round neg v (e - fxBits)).1

/-- EXP2 of a finite value. -/
def exp2Fin (neg : Bool) (m : Nat) (e : Int) : Nat :=
  if m = 0 then 0x3F800000
  else if ilog2 m e ≥ 9 then (if neg then 0 else 0x7F800000)
  else
    let r := fxExp2 (fxOf neg m e)
    fxRound false r.1 r.2

/-- LOG2 of a positive finite value: exponent plus the logarithm of a significand in [3/4, 3/2). -/
def log2Fin (m : Nat) (e : Int) : Nat :=
  let l := ilog2 m e
  let s : Nat := (fxOf false m (e - l)).toNat
  let big := decide (2 * s ≥ 3 * fxOne)
  let l := if big then l + 1 else l
  let s := if big then s / 2 else s
  let lt := decide (s < fxOne)
  let z := fxDiv (if lt then fxOne - s else s - fxOne) (s + fxOne)
  let ln := 2 * fxAtanhTerms 130 1 z (fxMul z z)
  let f : Int := (fxDiv ln fxLn2 : Nat)
  let v : Int := l * (fxOne : Int) + (if lt then -f else f)
  fxRound (v < 0) v.natAbs 0

/-- RCP of a nonzero finite value, rounded once from the exact quotient. -/
def rcpFin (neg : Bool) (m : Nat) (e : Int) : Nat :=
  let n := 2 ^ (m.log2 + 60)
  let q := 2 * (n / m) + (if n % m = 0 then 0 else 1)
  (f32Round neg q (-((m.log2 : Int) + 61) - e)).1

/-- The integer square root by bisection from the top bit. -/
def isqrtBits : Nat → Nat → Nat → Nat
  | 0, _, r => r
  | b + 1, n, r =>
    let t := r + 2 ^ b
    isqrtBits b n (if t * t ≤ n then t else r)

/-- RSQRT of a positive finite value, rounded once from the exact root. -/
def rsqrtFin (m : Nat) (e : Int) : Nat :=
  let m' := if e % 2 = 0 then m else 2 * m
  let e' := if e % 2 = 0 then e else e - 1
  let n := 2 ^ (2 * (m'.log2 + 60))
  let q := n / m'
  let r := isqrtBits (m'.log2 + 62) q 0
  let exact := r * r * m' = n
  (f32Round false (2 * r + (if exact then 0 else 1)) (-((m'.log2 : Int) + 61) - e' / 2)).1

/-- e to minus a fixed-point magnitude, in fixed point. -/
def fxExpNeg (a : Nat) : Nat :=
  let x : Int := -((fxDiv a fxLn2 : Nat) : Int)
  let r := fxExp2 x
  if r.2 < -500 then 0 else r.1 >>> (-r.2).toNat

/-- TANH of a finite value. -/
def tanhFin (neg : Bool) (m : Nat) (e : Int) : Nat :=
  if m = 0 then putBit neg 31
  else if ilog2 m e ≥ 8 then putBit neg 31 + 0x3F800000
  else
    let t := fxExpNeg (2 * (fxOf false m e).toNat)
    fxRound neg (fxDiv (fxOne - t) (fxOne + t)) 0

/-- SIGMOID of a finite value. -/
def sigmoidFin (neg : Bool) (m : Nat) (e : Int) : Nat :=
  if m = 0 then 0x3F000000
  else if ilog2 m e ≥ 8 then (if neg then 0 else 0x3F800000)
  else
    let t := fxExpNeg (fxOf false m e).toNat
    fxRound false (if neg then fxDiv t (fxOne + t) else fxDiv fxOne (fxOne + t)) 0

/-- The functions of an ACT stage (R218, R220). -/
def actFn (func x : Nat) : Nat :=
  match f32Dec x with
  | .nan => f32Nan
  | .inf neg =>
    match func with
    | 0 => if neg then 0 else x
    | 1 => if neg then 0 else x
    | 2 => if neg then f32Nan else x
    | 3 => putBit neg 31
    | 4 => if neg then f32Nan else 0
    | 5 => putBit neg 31 + 0x3F800000
    | _ => if neg then 0 else 0x3F800000
  | .fin neg m e =>
    match func with
    | 0 => fMax x 0
    | 1 => exp2Fin neg m e
    | 2 => if m = 0 then 0xFF800000 else if neg then f32Nan else log2Fin m e
    | 3 => if m = 0 then f32Inf neg else rcpFin neg m e
    | 4 => if m = 0 then f32Inf neg else if neg then f32Nan else rsqrtFin m e
    | 5 => tanhFin neg m e
    | _ => sigmoidFin neg m e

end Sys2Proof.Machine
end

