-- ==== Sys2Proof/Machine/Whey.lean ====
section
/-! DEFINITION. The whey unit of a core: issue and its checks (R227 to R229, R233, R618), the stages of a
chain (R211 to R226), dual-issue compare (R241 to R243), completion (R232, R245) and culture writes
(R239). -/

namespace Sys2Proof.Machine

/-! ### Descriptors (R213, R216) -/

/-- A stage from its two words. -/
def stageOf (w0 w1 : Nat) : Stage :=
  { ty := fld w0 31 28, fn := fld w0 27 24, ka := fld w0 23 22, kb := fld w0 21 20, rnd := fld w0 19 18,
    dfmt := fld w0 17 14, dest := fld w0 13 12, opb := fld w1 63 32, opa := fld w1 31 0 }

/-- A chain from its header and stage words. -/
def chainOf (ws : List Dword) : Chain :=
  let w (i : Nat) : Nat := (ws.getD i 0).toNat
  { rows := fld (w 0) 55 40 + 1, cols := fld (w 0) 39 16 + 1, ccIdx := fld (w 0) 15 10, ccEn := bitOf (w 0) 9,
    dual := bitOf (w 0) 8, x := w 1, y := w 2, z := w 3, d := [w 4, w 5, w 6], dscl := fld (w 7) 56 32,
    xscl := fld (w 7) 24 0,
    stages := (List.range (fld (w 0) 7 5 + 1)).map fun i => stageOf (w (8 + 2 * i)) (w (9 + 2 * i)), cvt := false }

/-- Operands that a stage type uses: a, b (R218). -/
def stageUses (ty : Nat) : Bool × Bool :=
  match ty with
  | 1 => (true, false) | 2 => (true, false) | 3 => (true, true) | 4 => (true, false) | 5 => (true, true)
  | 7 => (true, true) | 9 => (true, false) | _ => (false, false)

/-- Number of functions of a stage type; 0 for a reserved type (R218). -/
def stageFuncs (ty : Nat) : Nat :=
  match ty with
  | 1 => 1 | 2 => 1 | 3 => 1 | 4 => 2 | 5 => 1 | 6 => 7 | 7 => 1 | 8 => 2 | 9 => 1 | 10 => 1 | _ => 0

/-- Whether an operand field fits its kind (R217, R618). -/
def operandOk (used immOnly : Bool) (kind field : Nat) : Bool :=
  if !used then kind == 0 && field == 0
  else match kind with
    | 0 => true
    | 3 => !immOnly && decide (field < 2)
    | _ => !immOnly && decide (field < 2 ^ 18)

/-- Whether a format is block-scaled DF8 or DF16. -/
def blockFmt (f : Nat) : Bool := f == 6 || f == 7

/-- Whether a scale operand names the NaN scale for a block-scaled destination (R207). -/
def badScale (dfmt opa : Nat) : Bool := blockFmt dfmt && !bitOf opa 8 && opa % 256 == 255

/-- Whether a stage holds only defined values (R229, R618). -/
def stageOk (st : Stage) : Bool :=
  let u := stageUses st.ty
  decide (st.fn < stageFuncs st.ty) && operandOk u.1 (st.ty == 7 || st.ty == 9) st.ka st.opa && operandOk u.2 false st.kb st.opb &&
  (st.ty != 7 || decide (st.opa < 2 ^ 16)) && (st.ty != 9 || (decide (st.opa < 2 ^ 9) && decide (st.rnd < 3) && cvtDest st.dfmt)) &&
  (!stageDest st || decide (st.dest < 3))

/-- Each stage with the one after it. -/
def stagePairs (ss : List Stage) : List (Stage × Option Stage) :=
  ss.zip ((ss.drop 1).map some ++ [none])

/-- The format that a destination must have: that of the CVT before a WRITE, else binary32. -/
def destNeeds (ss : List Stage) : List (Nat × Nat) :=
  let prev := none :: ss.map some
  (ss.zip prev).filterMap fun x =>
    if stageDest x.1 then
      some (x.1.dest, match x.2 with | some p => if p.ty = 9 && x.1.ty = 10 then p.dfmt else 3 | none => 3)
    else none

/-- The operands that a chain names: word, rows, columns. -/
def chainOps (ch : Chain) : List (Nat × Nat × Nat) :=
  [(ch.x, ch.rows, ch.cols)] ++
  (if ch.stages.any fun st => stageStream st false then [(ch.y, ch.rows, ch.cols)] else []) ++
  (if ch.stages.any fun st => stageStream st true then [(ch.z, ch.rows, ch.cols)] else []) ++
  (ch.stages.filter stageDest).map fun st => (ch.d.getD st.dest 0, ch.rows, if st.ty = 8 then 1 else ch.cols)

/-- Whether an operand lies inside its space, on its element size (R229). -/
def opOk (o : Nat × Nat × Nat) : Bool :=
  let w := o.1
  let f := opFmt w
  match opSpace w with
  | 0 => opIndex w % fmtSize f == 0 && opStride w % fmtSize f == 0
  | 1 => f == 3 && decide (opEnd w o.2.1 o.2.2 ≤ 524288)
  | 2 => f == 3 && decide (opEnd w o.2.1 o.2.2 ≤ 262144)
  | _ => false

/-- Whether a condition of R229 other than that on the descriptor offset and VER holds. -/
def chainBad (ch : Chain) : Bool :=
  let needs := destNeeds ch.stages
  let xf := opFmt ch.x
  let yz (z : Bool) (w : Nat) : Bool :=
    !(ch.stages.any fun st => stageStream st z) || opFmt w == 0 || opFmt w == 2 || opFmt w == 3
  ch.stages.any (fun st => !stageOk st) ||
  (stagePairs ch.stages).any (fun p => p.1.ty == 9 &&
    (badScale p.1.dfmt p.1.opa || match p.2 with | some q => q.ty != 10 | none => true)) ||
  needs.isEmpty || decide ((needs.map Prod.fst).eraseDups.length < needs.length) ||
  needs.any (fun n => opFmt (ch.d.getD n.1 0) != n.2) ||
  !(decide (xf ≤ 3) || xf == 6 || xf == 7 || xf == 8) || !yz false ch.y || !yz true ch.z ||
  decide (1 < (needs.filter fun n => fmtScaled n.2).length) ||
  ((xf == 8 || needs.any fun n => n.2 == 8) && ch.cols % 64 != 0) ||
  (chainOps ch).any (fun o => !opOk o) ||
  (ch.stages.flatMap (stageVecs ch)).any fun v => decide (262144 < v.1 + v.2)

/-- Formats of a chain's operands and conversions (R228). -/
def chainFmts (ch : Chain) : List Nat :=
  (chainOps ch).map (fun o => opFmt o.1) ++ (ch.stages.filter fun st => st.ty = 9).map (·.dfmt)

/-- Scratchpad regions of a chain that pass the end of the scratchpad (R228, R229). -/
def chainOutside (ch : Chain) : Bool :=
  (chainOps ch).any (fun o => opSpace o.1 == 0 && decide (spadSize < opEnd o.1 o.2.1 o.2.2)) ||
  (fmtScaled (opFmt ch.x) && decide (spadSize < ch.xscl + sclLen ch)) ||
  ((destNeeds ch.stages).any (fun n => fmtScaled n.2) && decide (spadSize < ch.dscl + sclLen ch))

/-- What an issue on the whey unit finds (R228). -/
inductive ChainCheck where
  | refuse (st : Status)
  | fault (st : Status)
  | ok (ch : Chain)
  deriving DecidableEq, Repr

/-- The tests of R228 from step 3 on. -/
def checkChain (s : State) (c : Nat) (ch : Chain) (bad : Bool) : ChainCheck :=
  if bad then .refuse .descInvalid
  else if ((coreOf s c).whey.stat.toNat).testBit 7 then .refuse .wheyFault
  else if !fullService s && (chainFmts ch).any fun f => f != 2 && f != 3 then .refuse .earlyService
  else if chainOutside ch then .fault .addressFault
  else .ok ch

/-- Bytes of a descriptor in scratchpad with its stages. -/
def chainReach (s : State) (c off : Nat) : Nat := 64 + 16 * (fld (rdNum s (spadBase c + off) 8) 7 5 + 1)

/-- The tests of R228 on a descriptor in scratchpad. -/
def checkChainAt (s : State) (c off : Nat) : ChainCheck :=
  if off % 64 ≠ 0 then .refuse .descInvalid
  else if spadSize < off + 64 then .fault .addressFault
  else
    let n := 16 * (fld (rdNum s (spadBase c + off) 8) 7 5 + 1)
    if spadSize < off + 64 + n then .fault .addressFault
    else if isBad s (spadBase c + off) (64 + n) then .fault .memPoison
    else
      let ws := rdWords s (spadBase c + off) (8 + n / 8)
      let ch := chainOf ws
      checkChain s c ch (fld (ws.getD 0 0).toNat 4 0 != 1 || chainBad ch)

/-! ### Issue (R227, R228, R232) -/

/-- A chain as a segment record keeps it: its descriptor; a CVT as the descriptor that its one stage and
its WRITE would have, with bit 63 of the header set (log entry 12). -/
def chainBytes (ch : Chain) : Bytes :=
  let st (x : Stage) : List Nat :=
    [putFld x.ty 4 28 + putFld x.fn 4 24 + putFld x.ka 2 22 + putFld x.kb 2 20 + putFld x.rnd 2 18 + putFld x.dfmt 4 14 +
      putFld x.dest 2 12, putFld x.opb 32 32 + putFld x.opa 32 0]
  wordsB ([putBit ch.cvt 63 + putFld (ch.rows - 1) 16 40 + putFld (ch.cols - 1) 24 16 + putFld ch.ccIdx 6 10 +
    putBit ch.ccEn 9 + putBit ch.dual 8 + putFld (ch.stages.length - 1) 3 5 + 1, ch.x, ch.y, ch.z,
    ch.d.getD 0 0, ch.d.getD 1 0, ch.d.getD 2 0, putFld ch.dscl 25 32 + putFld ch.xscl 25 0] ++ ch.stages.flatMap st)

/-- A chain accepted (R227). -/
def acceptChain (s : State) (c : Nat) (ch : Chain) (off ctx blk : Nat) (launch : Nat × Nat) (replay : Bool) : State :=
  let s := if !replay && isJobCtx s ctx then segAppend s c 2 (chainBytes ch) else s
  modCore s c fun k =>
    let e : WheyEntry :=
      { chain := ch, off := off, seq := k.whey.seq, n := k.isn, ctx := ctx, blk := blk, launch := launch, replay := replay }
    { k with isn := k.isn + 1, whey := { k.whey with queue := k.whey.queue ++ [e], seq := k.whey.seq + 1 } }

/-- The end of WXISSUE and CVT: a full queue stalls the group, a refusal goes to td, a chain into the
queue; `put` writes the result registers. -/
def wheyIssue (s : State) (c g : Nat) (x : Issue) (r : State → ChainCheck) (off : Nat) (put : Nat → Bool → Group) : Res :=
  let stalled (k : Core) : Core :=
    { k with whey := { k.whey with stall := if k.whey.stall.contains g then k.whey.stall else k.whey.stall ++ [g] } }
  if !mayTake x.k.whey.stall g (32 - wheyDepth x.k) then .next (modCore s c stalled)
  else
    let s := modCore s c fun k => { k with whey := { k.whey with stall := k.whey.stall.filter fun h => h ≠ g } }
    match r s with
    | .fault st => .next (issueFault (statusMet s st [(spadBase c + off, chainReach s c off)] c (some x.blk.ctx)) x st)
    | .refuse st => .next (advance s x (put st.code false))
    | .ok ch => .next (acceptChain (advance s x (put x.k.whey.seq.toNat true)) c ch off x.blk.ctx x.grp.blk x.blk.launch false)

/-- WXISSUE (R206, R227). -/
def execWxissue (c g : Nat) (i : Insn) (s : State) : Res :=
  issue s c g (unitForm i) i fun x =>
    if x.act.isEmpty then .next (advance s x x.grp)
    else
      let off := reg x.grp (lowest x) (iA i)
      if descPending x.k c off 192 then .next s
      else wheyIssue s c g x (fun s => checkChainAt s c off) off (issueResult x i)

/-- WXWAIT (R232). -/
def execWxwait (c g : Nat) (i : Insn) (s : State) : Res :=
  issue s c g (srcForm i) i fun x =>
    if x.act.isEmpty then .next (advance s x x.grp)
    else if counterReached x.k.whey.cc (iMod i % 64) (reg x.grp (lowest x) (iA i)) then .next (advance s x x.grp)
    else .next (waitPath s x x.grp)

/-- Whether RND is ignored: exact pairs and block-scaled sources (R207). -/
def cvtExact (sf df : Nat) : Bool := df == 3 || (sf == 0 && df == 2)

/-- The first 64-byte aligned offset at or above the end of an element run (R233). -/
def afterRun (w n : Nat) : Nat := 64 * ceilDiv (opEnd w 1 n) 64

/-- The chain that a CVT stands for (R207, R233). -/
def cvtChain (sf df rnd cc src dst n scl : Nat) : Chain :=
  let x := sf * 2 ^ 60 + src
  let d := df * 2 ^ 60 + dst
  let wr : Stage := { ty := 10, fn := 0, ka := 0, kb := 0, rnd := 0, dfmt := 0, dest := 0, opb := 0, opa := 0 }
  let cv : Stage := { wr with ty := 9, rnd := if cvtExact sf df then 0 else rnd, dfmt := df, opa := scl % 512 }
  { rows := 1, cols := n, ccIdx := cc, ccEn := true, dual := false, x := x, y := 0, z := 0, d := [d, 0, 0],
    dscl := afterRun d n, xscl := afterRun x n, stages := if df = 3 then [wr] else [cv, wr], cvt := true }

/-- CVT (R206 to R208, R233). -/
def execCvt (c g : Nat) (i : Insn) (s : State) : Res :=
  let m := iMod i
  let sf := fld m 15 12
  let df := fld m 11 8
  issue s c g (cvtForm i) i fun x =>
      if x.act.isEmpty then .next (advance s x x.grp)
      else
        let l := lowest x
        let n := reg x.grp l (iC i)
        let scl := if iC i = 255 then 0 else reg x.grp l (iC i + 1)
        let ch := cvtChain sf df (fld m 7 6) (fld m 5 0) (reg x.grp l (iA i)) (reg x.grp l (iB i)) n scl
        let bad := n == 0 || decide (2 ^ 24 < n) || ((sf == 8 || df == 8) && n % 64 != 0) || badScale df scl ||
          (chainOps ch).any fun o => !opOk o
        wheyIssue s c g x (fun s => checkChain s c ch bad) 0
          fun v _ => x.act.foldl (fun grp l => setReg grp l (iDst i) v) x.grp

/-! ### Reads (R215, R217, R223) -/

/-- An element of accumulator memory or the operand cache. -/
def elemAt (k : Core) (space el : Nat) : Nat := (mget (if space = 1 then k.accMem else k.oc) 0 el).toNat

/-- Element (r, j) of an operand as binary32, with the flags of its conversion. -/
def readElem (s : State) (c w scl cols r j : Nat) : Nat × Flags4 :=
  let k := coreOf s c
  if opSpace w ≠ 0 then (elemAt k (opSpace w) (opIndex w + r * opStride w + j), {})
  else
    let row := spadBase c + opIndex w + r * opStride w
    let sb := (rdByte s (spadBase c + scl + r * ceilDiv cols 32 + j / 32)).toNat
    match opFmt w with
    | 0 => f32Enc (df8Dec (rdByte s (row + j)).toNat)
    | 1 => f32Enc (di8Dec sb (rdByte s (row + j)).toNat)
    | 2 => f32Enc (df16Dec (rdNum s (row + 2 * j) 2))
    | 6 => f32Enc (scaled (df8Dec (rdByte s (row + j)).toNat) sb)
    | 7 => f32Enc (scaled (df16Dec (rdNum s (row + 2 * j) 2)) sb)
    | 8 =>
      let b := row + 132 * (j / 64)
      f32Enc (dgDec (rdNum s b 4) (rdNum s (b + 4 + 2 * (j % 64)) 2))
    | _ => (rdNum s (row + 4 * j) 4, {})

/-- Operand a or b of a stage for element (r, j). -/
def stageOperand (s : State) (c : Nat) (ch : Chain) (kind field r j : Nat) : Nat × Flags4 :=
  let k := coreOf s c
  match kind with
  | 0 => (field, {})
  | 1 => (elemAt k 2 (fld field 17 0 + j), {})
  | 2 => (elemAt k 2 (fld field 17 0 + r), {})
  | _ => readElem s c (if bitOf field 0 then ch.z else ch.y) 0 ch.cols r j

/-- The bytes of scratchpad with elements j to j + n - 1 of row r of an operand and their scales. -/
def opParts (c w scl cols r j n : Nat) : List (Nat × Nat) :=
  if opSpace w = 1 ∨ opSpace w = 2 then []
  else
    let row := spadBase c + opIndex w + r * opStride w
    (if opFmt w = 8 then (row + 132 * (j / 64), 132) else (row + j * fmtSize (opFmt w), n * fmtSize (opFmt w))) ::
      if fmtScaled (opFmt w) then [(spadBase c + scl + r * ceilDiv cols 32 + j / 32, ceilDiv n 32)] else []

/-- Whether elements j to j + n - 1 of row r of an operand hold poison (R296). -/
def opBad (s : State) (c w scl cols r j n : Nat) : Bool :=
  let k := coreOf s c
  let bad (l : List Nat) (el m : Nat) : Bool := l.any fun u => decide (2 * u < el + m) && decide (el < 2 * u + 2)
  match opSpace w with
  | 1 => bad k.accBad (opIndex w + r * opStride w + j) n
  | 2 => bad k.ocBad (opIndex w + r * opStride w + j) n
  | _ => (opParts c w scl cols r j n).any fun x => isBad s x.1 x.2

/-- The bytes of scratchpad that a group reads. -/
def groupParts (c : Nat) (ch : Chain) (r j n : Nat) : List (Nat × Nat) :=
  opParts c ch.x ch.xscl ch.cols r j n ++
    (if ch.stages.any fun st => stageStream st false then opParts c ch.y 0 ch.cols r j n else []) ++
    if ch.stages.any fun st => stageStream st true then opParts c ch.z 0 ch.cols r j n else []

/-- Whether the reads of a group meet poison. -/
def groupBad (s : State) (c : Nat) (ch : Chain) (r j n : Nat) : Bool :=
  let k := coreOf s c
  let oc (el m : Nat) : Bool := k.ocBad.any fun u => decide (2 * u < el + m) && decide (el < 2 * u + 2)
  let vec (kind field : Nat) : Bool :=
    match kind with | 1 => oc (fld field 17 0 + j) n | 2 => oc (fld field 17 0 + r) 1 | _ => false
  opBad s c ch.x ch.xscl ch.cols r j n ||
  ((ch.stages.any fun st => stageStream st false) && opBad s c ch.y 0 ch.cols r j n) ||
  ((ch.stages.any fun st => stageStream st true) && opBad s c ch.z 0 ch.cols r j n) ||
  ch.stages.any fun st => vec st.ka st.opa || vec st.kb st.opb

/-! ### Stages (R218 to R225) -/

/-- A value in a lane: its column, x, and whether its NaN event has been raised (R244). -/
structure WLane where
  j : Nat
  x : Nat
  ev : Bool
  deriving DecidableEq, Repr

/-- A write of a group: to scratchpad bytes, or to elements of a space. -/
inductive WWrite where
  | bytes (off : Nat) (bs : Bytes)
  | elems (space el : Nat) (vs : List Nat)
  deriving DecidableEq, Repr

/-- A group on its way through the stages. -/
structure WGroup where
  lanes : List WLane
  flags : Flags4 := {}
  events : List NanSrc := []
  writes : List WWrite := []
  part : Map Word
  /-- What the CVT before a WRITE made: bytes of the elements and bytes of the scales. -/
  conv : Option (Bytes × Bytes) := none
  /-- Drawing stages passed. -/
  drawn : Nat := 0
  deriving DecidableEq, Repr

/-- Effect of a stage on x (R219 to R221); `d` is the lane's draw. -/
def stageFn (st : Stage) (x a b d : Nat) : Nat :=
  match st.ty with
  | 1 => fMul x a
  | 2 => fAdd x a
  | 3 => fFma x a b
  | 4 => if st.fn = 0 then fMin x a else fMax x a
  | 5 => fMin (fMax x a) b
  | 6 => actFn st.fn x
  | 7 => if d < st.opa % 2 ^ 16 then 0 else fMul x b
  | _ => x

/-- Whether a stage takes a draw (R238). -/
def stageDraws (st : Stage) : Bool := st.ty == 7 || (st.ty == 9 && st.rnd == 2)

/-- Drawing stages of a chain. -/
def drawCount (ch : Chain) : Nat := (ch.stages.filter stageDraws).length

/-- The rounding mode of a CVT stage. -/
def stageRnd (st : Stage) : Rnd := match st.rnd with | 0 => .rne | 1 => .rtz | _ => .sr

/-- Values cut into blocks of 32 columns. -/
def blocks32 {α : Type} (xs : List α) : List (List α) :=
  (List.range (ceilDiv xs.length 32)).map fun b => (xs.drop (32 * b)).take 32

/-- The converted bytes of a group and of its scales, with the flags (R62 to R69, R224). -/
def convertGroup (st : Stage) (vs : List Num) (draws : List Nat) : Bytes × Bytes × Flags4 :=
  let mode := stageRnd st
  let ors (fs : List Flags4) : Flags4 := fs.foldl Flags4.or {}
  let plain (f : Nat → Num → Nat × Flags4) (n : Nat) : Bytes × Bytes × Flags4 :=
    let es := (vs.zip draws).map fun vd => f vd.2 vd.1
    (es.flatMap fun e => leBytes n e.1, [], ors (es.map Prod.snd))
  match st.dfmt with
  | 0 => plain (df8Enc mode) 1
  | 2 => plain (df16Enc mode) 2
  | 8 => let r := dgBlock mode draws (st.opa % 256) vs; (r.1, [], r.2)
  | f =>
    let bs := ((blocks32 vs).zip (blocks32 draws)).map fun vd =>
      if f = 1 then di8Block mode vd.2 vd.1
      else
        let scl := if bitOf st.opa 8 then deriveScale (f == 7) vd.1 else st.opa % 256
        let es := (vd.1.zip vd.2).map fun x =>
          let v := x.1.scale (127 - (scl : Int))
          if f = 6 then df8Enc mode x.2 v else df16Enc mode x.2 v
        (scl, es.map Prod.fst, ors (es.map Prod.snd))
    (bs.flatMap fun b => b.2.1.flatMap fun e => leBytes (if f = 7 then 2 else 1) e,
      bs.map fun b => BitVec.ofNat 8 b.1, ors (bs.map fun b => b.2.2))

/-- A binary32 value as it is written: every NaN in the canonical form (R45, R46). -/
def f32Canon (x : Nat) : Nat := if isNan x then f32Nan else x

/-- The write of a row's group by a WRITE stage (R225). -/
def writeOf (ch : Chain) (st : Stage) (r j : Nat) (g : WGroup) : List WWrite :=
  let w := ch.d.getD st.dest 0
  let at_ := opIndex w + r * opStride w
  match g.conv with
  | some (bs, scl) =>
    [.bytes (at_ + fmtRow (opFmt w) j) bs] ++
      (if scl.isEmpty then [] else [.bytes (ch.dscl + r * ceilDiv ch.cols 32 + j / 32) scl])
  | none =>
    if opSpace w = 0 then [.bytes (at_ + 4 * j) (g.lanes.flatMap fun l => leBytes 4 (f32Canon l.x))]
    else [.elems (opSpace w) (at_ + j) (g.lanes.map fun l => f32Canon l.x)]

/-- Six levels of pairs (R222). -/
def foldPairs (f : Nat → Nat → Nat) : Nat → List Nat → List Nat
  | 0, xs => xs
  | n + 1, xs => foldPairs f n ((List.range (xs.length / 2)).map fun i => f (xs.getD (2 * i) 0) (xs.getD (2 * i + 1) 0))

/-- RED: the partials of the row, and the row's result once its last group has passed (R222). A partial or a result
that is NaN although no x is (+∞ with −∞) raises no event: R244 gives events to elements (DESIGN CHOICE, log entry
101). -/
def redStage (ch : Chain) (st : Stage) (n r j : Nat) (g : WGroup) : WGroup :=
  let init : Word := if st.fn = 0 then 0 else 0xFF800000
  let op := if st.fn = 0 then fAdd else fMax
  let get (p : Map Word) (l : Nat) : Nat := (mget p init (64 * n + l)).toNat
  let part := g.lanes.foldl (fun p l => mput p (64 * n + l.j % 64) (BitVec.ofNat 32 (op (get p (l.j % 64)) l.x))) g.part
  if ch.cols ≤ j + 64 then
    let v := (foldPairs op 6 ((List.range 64).map (get part))).getD 0 0
    let w := ch.d.getD st.dest 0
    let at_ := opIndex w + r * opStride w
    { g with
      part := part.filter fun kv => kv.1 / 64 ≠ n
      writes := g.writes ++ [if opSpace w = 0 then .bytes at_ (leBytes 4 v) else .elems (opSpace w) at_ [v]] }
  else { g with part := part }

/-- One stage of a group; `n` is its number, `draw` gives a lane's draw at a drawing stage. Of several elements of a group
with an event at one stage, the one of the lowest column comes first (R245, R251; DESIGN CHOICE, log entry 120). -/
def runStage (s : State) (c : Nat) (ch : Chain) (r j : Nat) (draw : Nat → Nat → Nat) (g : WGroup) (n : Nat) (st : Stage) : WGroup :=
  let d := g.drawn
  let g := if stageDraws st then { g with drawn := d + 1 } else g
  if st.ty = 8 then redStage ch st n r j g
  else if st.ty = 10 then { g with writes := g.writes ++ writeOf ch st r j g, conv := none }
  else if st.ty = 9 then
    let v := convertGroup st (g.lanes.map fun l => f32Dec l.x) (g.lanes.map fun l => if stageDraws st then draw d (l.j % 64) else 0)
    { g with conv := some (v.1, v.2.1), flags := g.flags.or v.2.2 }
  else
    g.lanes.foldl
      (fun g l =>
        let a := stageOperand s c ch st.ka st.opa r l.j
        let b := stageOperand s c ch st.kb st.opb r l.j
        let x := stageFn st l.x a.1 b.1 (if st.ty = 7 then draw d (l.j % 64) else 0)
        let uses := stageUses st.ty
        let opNan := (uses.1 && st.ty != 7 && isNan a.1) || (uses.2 && isNan b.1)
        let hit := isNan x && !isNan l.x && !l.ev
        let e : NanSrc := { cause := if opNan then 9 else 10, term := if ch.cvt then 0 else n, row := r, col := l.j }
        { g with
          lanes := g.lanes ++ [{ l with x := x, ev := l.ev || hit }]
          flags := (g.flags.or a.2).or b.2
          events := if hit then g.events ++ [e] else g.events })
      { g with lanes := [] }

/-- A group of a chain run through its stages on the state as it stands. Of several NaN elements of X that it reads, the one
of the lowest column comes first (R245, R251; DESIGN CHOICE, log entry 120). -/
def runGroup (s : State) (c : Nat) (ch : Chain) (q : Nat) (part : Map Word) (draw : Nat → Nat → Nat) : WGroup :=
  let gpr := ceilDiv ch.cols 64
  let r := q / gpr
  let j := 64 * (q % gpr)
  let n := min 64 (ch.cols - j)
  let xs := (List.range n).map fun i => (j + i, readElem s c ch.x ch.xscl ch.cols r (j + i))
  let g : WGroup :=
    { lanes := xs.map fun x => { j := x.1, x := x.2.1, ev := isNan x.2.1 }
      flags := xs.foldl (fun f x => f.or x.2.2) {}
      events := (xs.filter fun x => isNan x.2.1).map fun x => { cause := 8, term := 0, row := r, col := x.1 }
      part := part }
  (ch.stages.zip (List.range ch.stages.length)).foldl (fun g x => runStage s c ch r j draw g x.2 x.1) g

/-- A group's write to accumulator memory or the operand cache performed. -/
def wheyPut (s : State) (c : Nat) (w : WWrite) : State :=
  match w with
  | .bytes .. => s
  | .elems 1 el vs => modCore s c fun k => let p := putElems k.accMem k.accBad el vs; { k with accMem := p.1, accBad := p.2 }
  | .elems _ el vs => modCore s c fun k => let p := putElems k.oc k.ocBad el vs; { k with oc := p.1, ocBad := p.2 }

/-! ### Running a chain (R231, R238, R241 to R243) -/

/-- Groups of a chain (R211). -/
def groupTotal (ch : Chain) : Nat := ch.rows * ceilDiv ch.cols 64

/-- All culture counters moved by n. -/
def bumpCtr (m : Map Dword) (n : Int) : Map Dword :=
  (List.range 64).foldl (fun m l => mset m 0 l (mget m 0 l + BitVec.ofInt 64 n)) m

/-- The counters of the chain's draws moved by n: the live ones, or those of a replay (R238, R459). -/
def moveDraws (w : Whey) (replay : Bool) (n : Int) : Whey :=
  if replay then { w with rctr := bumpCtr w.rctr n } else { w with ctr := bumpCtr w.ctr n }

/-- The draw of a lane for group q of a chain at drawing stage d (R237, R238). -/
def drawOf (w : Whey) (r : WheyRun) (q d l : Nat) : Nat :=
  cultDraw (if r.e.replay then w.rseed else w.seed) l (mget r.ctr0 0 l + BitVec.ofNat 64 (q * drawCount r.e.chain + d))

/-- The whey run of a core changed. -/
def modWhey (s : State) (c : Nat) (f : Whey → Whey) : State := modCore s c fun k => { k with whey := f k.whey }

/-- The place of the chain that began last, whose groups enter next. -/
def lastChain (w : Whey) : Nat := w.runs.length - 1

/-- The place of the oldest chain with a group that has entered and is not written. -/
def oldestChain (w : Whey) : Nat := (w.runs.findIdx? fun r => decide (r.written < r.entered)).getD 0

/-- The chain at a place replaced. -/
def setChain (w : Whey) (i : Nat) (r : WheyRun) : Whey := { w with runs := lset w.runs i r }

/-- Whether a queued chain may begin: every group of the chain before it has entered, and no culture write that it is to
draw after waits (R231, R239). A region in common that the chain before writes holds its groups back (R230). -/
def chainMayBegin (w : Whey) (e : WheyEntry) : Bool :=
  (match w.runs[lastChain w]? with | some r => r.entered == groupTotal r.e.chain && r.dead.isNone | none => true) &&
    (drawCount e.chain == 0 || w.writes.all fun x => decide (e.n < x.after))

/-- The head of the whey queue begins to run where it may (R231). -/
def beginChain (k : Core) : Core :=
  match k.whey.queue with
  | e :: rest =>
    if chainMayBegin k.whey e then
      { k with whey := { k.whey with
        queue := rest
        runs := k.whey.runs ++ [{
          e := e, entered := 0, written := 0, part := [], ctr0 := if e.replay then k.whey.rctr else k.whey.ctr, events := 0,
          first := none, mism := false, dead := none, late := [] }] } }
    else k
  | [] => k

/-- CHAIN_GROUP_ENTRY (R226, R231, R238). -/
def execChainGroupEntry (c : Nat) (s : State) : Res :=
  onCore c (
    let k := beginChain (settleCulture (coreOf s c))
    let i := lastChain k.whey
    match k.whey.runs[i]? with
    | none => .next s
    | some r =>
      let apart := !chainAcross r.e.chain || r.entered == r.written
      if !pllDown s (4 + c / 64) && apart && r.entered < groupTotal r.e.chain &&
          !earlierHeld k c r.e.n (chainRngs r.e.chain) false then
        let w := moveDraws k.whey r.e.replay (drawCount r.e.chain)
        .next (setCore s c { k with whey := setChain w i { r with entered := r.entered + 1 } })
      else .next s)

/-- Bits 3:0 of WHEY_STAT for conversion flags (R248). -/
def flagBits (f : Flags4) : Nat := putBit f.nan 3 + putBit f.ovf 2 + putBit f.ufl 1 + putBit f.inx 0

/-- The blocks that the last groups' writes have not landed yet (R307): they land before the core's chains read, write or
complete anything more. -/
def landLate (s : State) (c : Nat) : State :=
  ((coreOf s c).whey.runs.flatMap (·.late)).foldl (fun s w => memPut s w.addr w.data)
    (modWhey s c fun w => { w with runs := w.runs.map fun r => { r with late := [] } })

/-- A command of a core's whey: nothing while its domain has no clock (R544); blocks still to land do so first. -/
def onWhey (s : State) (c : Nat) (run : State → Res) : Res :=
  if pllDown s (4 + c / 64) then .next s else run (landLate s c)

/-- A group's writes to scratchpad cut into their 64-byte blocks (R307). -/
def groupBlocks (c : Nat) (ws : List WWrite) : List HeldWrite :=
  ws.flatMap fun w => match w with | .bytes off bs => writeBlocks (spadBase c + off) bs | .elems .. => []

/-- The next group of the chain at place `i` computed and written: some of its 64-byte blocks land now, the others with
the next command of the core's whey (R225, R244, R307). -/
def writeGroup (s : State) (c i : Nat) (r : WheyRun) : State :=
  let ch := r.e.chain
  let q := r.written
  let gpr := ceilDiv ch.cols 64
  let j := 64 * (q % gpr)
  if r.dead.isSome then modWhey s c fun w => setChain w i { r with written := q + 1, mism := false }
  else if groupBad s c ch (q / gpr) j (min 64 (ch.cols - j)) then
    let s := poisonMet s (firstBad s (groupParts c ch (q / gpr) j (min 64 (ch.cols - j)))) c (some r.e.ctx)
    modWhey s c fun w => setChain w i { r with written := q + 1, mism := false, dead := some .memPoison }
  else
    let g := runGroup s c ch q r.part fun d l => drawOf (coreOf s c).whey r q d l
    let ws := groupBlocks c g.writes
    let now_ := (landNow s (ws.map fun w => w.addr / 64).eraseDups).1
    let s := g.writes.foldl (fun s w => wheyPut s c w) (drawn s)
    let s := (ws.filter fun w => now_.contains (w.addr / 64)).foldl (fun s w => memPut s w.addr w.data) s
    let r := { r with
      late := ws.filter fun w => !now_.contains (w.addr / 64)
      written := q + 1, part := g.part, mism := false, events := r.events + g.events.length
      first := match r.first with | some e => some e | none => g.events.head? }
    modCore s c fun k =>
      let k := k.wheyFlag (flagBits g.flags)
      { k with whey := setChain k.whey i r }

/-- CHAIN_GROUP_WRITE (R225, R241, R242): `differ` says that the two runs of a DUAL group differ. -/
def execChainGroupWrite (c : Nat) (differ : Bool) (s : State) : Res :=
  onCore c <| onWhey s c fun s =>
    let i := oldestChain (coreOf s c).whey
    match (coreOf s c).whey.runs[i]? with
    | none => .next s
    | some r =>
      if r.entered ≤ r.written || r.mism then .next s
      else if differ && r.e.chain.dual && r.dead.isNone then
        let s := modCore s c fun k =>
          let k := k.wheyFlag 0x20
          { k with whey := setChain k.whey i { r with mism := true } }
        .next (attn s { cls := 6, source := vatSource c, d0 := BitVec.ofNat 64 (c + 256 * physOf s c) })
      else .next (writeGroup s c i r)

/-- WHEY_GROUP_RERUN (R242, R243). -/
def execWheyGroupRerun (c : Nat) (differ : Bool) (s : State) : Res :=
  onCore c <| onWhey s c fun s =>
    let i := oldestChain (coreOf s c).whey
    match (coreOf s c).whey.runs[i]? with
    | none => .next s
    | some r =>
      if !r.mism then .next s
      else if differ then
        let s := modCore s c fun k =>
          let k := k.wheyFlag 0xE0
          { k with whey := setChain k.whey i { r with mism := false, written := r.written + 1, dead := some .wheyFault } }
        .next (attn s { cls := 7, source := vatSource c, d0 := BitVec.ofNat 64 (c + 256 * physOf s c) })
      else .next (writeGroup s c i r)

/-- The chain's events at the trap: all counted, the first captured (R245). -/
def presentEvents (k : Core) (r : WheyRun) : Core :=
  match r.first with
  | none => k
  | some e =>
    let k := trapEvent k
      (putBit true 63 + putBit true 62 + putFld e.cause 4 58 + putFld e.term 8 50 + putFld r.e.off 25 0)
      (putFld r.e.seq.toNat 16 48 + putFld e.col 24 24 + putFld e.row 16 0)
    { k with whey := { k.whey with nanCnt := BitVec.ofNat 32 (satAdd 32 k.whey.nanCnt.toNat (r.events - 1)) } }

/-- The oldest running chain, where it can complete (R232, R243, R296). -/
def chainDone (k : Core) : Option WheyRun :=
  match k.whey.runs with
  | [] => none
  | r :: _ => if r.written == groupTotal r.e.chain || (r.dead.isSome && !r.mism) then some r else none

/-- The completion of a chain: counters as for a full chain, completion counter, events, and its status, which its
launch keeps as its first fault (R232, R238, R243, R483). -/
def completeChain (s : State) (c : Nat) (r : WheyRun) : State :=
  let ch := r.e.chain
  let s := modCore s c fun k =>
    let k := presentEvents k r
    let w := moveDraws k.whey r.e.replay (((groupTotal ch - r.entered) * drawCount ch : Nat) : Int)
    let w := if ch.ccEn then { w with cc := mset w.cc 0 ch.ccIdx (mget w.cc 0 ch.ccIdx + 1) } else w
    settleCulture { k with whey := { w with runs := w.runs.tail, lastSeq := BitVec.ofNat 16 r.e.seq.toNat } }
  match r.dead with
  | some .memPoison => programFault s c r.e.ctx r.e.launch .memPoison
  | some st => launchFault s r.e.launch st
  | none => s

/-- CHAIN_COMPLETE (R232, R245). -/
def execChainComplete (c : Nat) (s : State) : Res :=
  onCore c (
    match chainDone (coreOf s c) with
    | some r => .next (if pllDown s (4 + c / 64) then s else completeChain (landLate s c) c r)
    | none => .next s)

/-- WHEY_CC_WRITE (R232): with `inc`, the running chain completes in the same core cycle. -/
def execWheyCcWrite (c n : Nat) (v : Word) (inc : Bool) (s : State) : Res :=
  onCore c (onUnit 64 n (
    if inc then
      match chainDone (coreOf s c) with
      | none => .next s
      | some r =>
        if pllDown s (4 + c / 64) then .next s
        else
        let m : Word := if r.e.chain.ccEn && r.e.chain.ccIdx = n then 1 else 0
        .next (modWhey (completeChain (landLate s c) c r) c fun w => { w with cc := mset w.cc 0 n (v + m) })
    else .next (modWhey s c fun w => { w with cc := mset w.cc 0 n v })))

/-- A culture write: it takes effect after every chain accepted before it (R239). -/
def cultureWrite (s : State) (c : Nat) (lane : Option Nat) (v : Dword) : State :=
  modCore s c fun k =>
    settleCulture { k with whey := { k.whey with writes := k.whey.writes ++ [{ after := k.isn, lane := lane, v := v }] } }

/-- CULTURE_WRITE (R239). -/
def execCultureWrite (c : Nat) (lane : Option Nat) (v : Dword) (s : State) : Res :=
  onCore c (match lane with
    | none => .next (cultureWrite s c none v)
    | some l => onUnit 64 l (.next (cultureWrite s c (some l) v)))

/-- READ_WHEY_NAN_CNT (R251). -/
def execReadWheyNanCnt (c : Nat) (s : State) : Res :=
  onCore c (
    let v := (coreOf s c).whey.nanCnt
    .next (emit (modWhey s c fun w => { w with nanCnt := 0 }) (.reg (BitVec.ofNat 64 v.toNat))))

/-- READ_PRESS_SAT_OTHER (R275). -/
def execReadPressSatOther (c : Nat) (s : State) : Res :=
  onCore c (
    let v := (coreOf s c).press.satOther
    .next (emit (modPress s c fun p => { p with satOther := 0 }) (.reg (BitVec.ofNat 64 v.toNat))))

end Sys2Proof.Machine
end

