-- ==== Sys2Proof/Machine/Admission.lean ====
section
/-! DEFINITION. Admission of blocks to a core (R148 to R151), the end of groups and blocks (R153) and the end
of a launch (R272, R483). -/

namespace Sys2Proof.Machine

/-! ### Free resources (R148, R181) -/

/-- Register units of a group of a block (R148). -/
def unitsOf (n : Nat) : Nat := ceilDiv n 8

/-- Register units held by the groups of a core: the entries of their maps (R149). -/
def unitsUsed (k : Core) : Nat := (k.groups.map fun kv => kv.2.units.length).sum

/-- The lowest-numbered free register units, `n` of them. The manual does not say which free units a group takes
(DESIGN CHOICE, log entry 100). -/
def freeUnits (k : Core) (n : Nat) : List Nat :=
  ((List.range 512).filter fun u => !(k.groups.any fun kv => kv.2.units.contains u)).take n

/-- Whether scratchpad unit `i` lies in the run of a block. -/
def unitTaken (k : Core) (i : Nat) : Bool :=
  k.blocks.any fun kv => decide (kv.2.base ≤ i) && decide (i < kv.2.base + kv.2.u)

/-- Free units at and above each of the units counted down from 384: the length of the free run there. -/
def runsFrom (k : Core) : List Nat :=
  (List.range 384).foldl (fun acc j => (if unitTaken k (383 - j) then 0 else acc.headD 0 + 1) :: acc) []

/-- The lowest free scratchpad run of `u` units (R150). -/
def freeRun (k : Core) (u : Nat) : Option Nat :=
  if u = 0 then some 0 else (runsFrom k).findIdx? fun n => decide (u ≤ n)

/-- CORE_OCC (R181). -/
def coreOcc (k : Core) : Nat :=
  let runs := runsFrom k
  putFld (runs.foldl max 0) 9 41 + putFld ((List.range 384).filter fun i => !unitTaken k i).length 9 32 +
    putFld (512 - unitsUsed k) 10 22 + putFld (48 - k.groups.length) 6 16 + putFld (16 - k.blocks.length) 5 11

/-- The lowest-numbered free slots, `n` of them, of `total`. -/
def freeSlots {α : Type} (m : Map α) (total n : Nat) : List Nat :=
  ((List.range total).filter fun i => (mget? m i).isNone).take n

/-! ### Admission (R147, R151) -/

/-- A new group, with its map of register units (R147, R149). -/
def newGroup (blk gid entry : Nat) (units : List Nat) : Group :=
  { blk := blk, gid := gid, paths := [{ lanes := BitVec.allOnes 32, pc := entry }], ended := 0, regs := [], preds := [],
    barWait := [], barDone := 0, holds := [], units := units, bad := [], rels := [] }

/-- A block in its slot with its groups in theirs, and its parameter record (R151, R483, R506). -/
def placeBlock (k : Core) (b : AdmBlock) (slot run : Nat) (gs : List Nat) : Core :=
  let blk : Block :=
    { ctx := b.ctx, launch := b.launch, bid := b.bid, g := b.g, n := b.n, u := b.u, base := run, slots := gs,
      bars := [], ladles := 0, told := false }
  let n := unitsOf b.n
  let units := freeUnits k (b.g * n)
  let groups := (gs.zip (List.range b.g)).foldl
    (fun m x => mput m x.1 (newGroup slot x.2 b.entry ((units.drop (x.2 * n)).take n))) k.groups
  let param := (List.range 8).foldl (fun m w => mset m 0 (8 * slot + w) (BitVec.ofNat 64 (wordAt b.param (8 * w)))) k.param
  { k with admQ := k.admQ.drop 1, blocks := mput k.blocks slot blk, groups := groups, param := param }

/-- The head block of an admission queue admitted, or ADMIT_WAIT when it waits while a block slot is free
(R151, R182). A head block that waits for its context to run, or for its core to run at all, waits for no resource and
sets no flag (DESIGN CHOICE, log entry 100). -/
def admitHead (k : Core) : Core :=
  match k.admQ.head? with
  | none => k
  | some b =>
    if k.stopped || k.ctx ≠ some b.ctx then k
    else
      let slots := freeSlots k.blocks 16 1
      let gs := freeSlots k.groups 48 b.g
      match slots.head?, freeRun k b.u with
      | some slot, some run =>
        if gs.length = b.g && unitsUsed k + b.g * unitsOf b.n ≤ 512 then placeBlock k b slot run gs
        else k.flag admitWaitBit
      | some _, none => k.flag admitWaitBit
      | none, _ => k

/-- BLOCK_ADMIT (R151). -/
def execBlockAdmit (c : Nat) (s : State) : Res := onHub s <| onCore c (.next (modCore s c admitHead))

/-! ### Ends (R153) -/

/-- Whether a group writes no register any more: it has ended and no load or atomic of it is pending. -/
def groupDone (k : Core) (g : Nat) : Bool :=
  match mget? k.groups g with
  | some grp => grp.paths.isEmpty && !(k.acc.any fun a => a.grp == g && a.kind != .store)
  | none => false

/-- GROUP_RESOURCE_FREE (R153). -/
def execGroupResourceFree (c g : Nat) (s : State) : Res := onHub s <|
  onCore c (onUnit 48 g (.next (
    if groupDone (coreOf s c) g then modCore s c fun k => { k with groups := mdel k.groups g } else s)))

/-- Whether everything that a block issued has completed (R153). -/
def blockDone (k : Core) (b : Nat) : Bool :=
  match mget? k.blocks b with
  | none => false
  | some blk =>
    k.groups.all (fun kv => kv.2.blk ≠ b || (kv.2.paths.isEmpty && groupDone k kv.1)) &&
    !(pressHeld k).any (fun e => e.blk == b && !e.replay) &&
    !(wheyHeld k).any (fun e => e.blk == b && !e.replay) &&
    !k.acc.any (fun a => a.blk == b) && blk.ladles == 0

/-- BLOCK_RESOURCE_FREE (R153): group slots that are still to be freed go with the block. -/
def execBlockResourceFree (c b : Nat) (s : State) : Res := onHub s <|
  onCore c (onUnit 16 b (.next (
    if blockDone (coreOf s c) b then
      modCore s c fun k =>
        { k with blocks := mdel k.blocks b, groups := k.groups.filter fun kv => kv.2.blk ≠ b }
    else s)))

/-! ### Launches (R152, R272, R483) -/

/-- Fields of a LAUNCH body (R483). -/
def lEntry (e : Bytes) : Nat := fld (eBody e 0) 47 0
def lBlocks (e : Bytes) : Nat := fld (eBody e 8) 63 32 + 1
def lU (e : Bytes) : Nat := fld (eBody e 8) 31 23
def lN (e : Bytes) : Nat := fld (eBody e 8) 22 15
def lG (e : Bytes) : Nat := fld (eBody e 8) 9 5 + 1
def lCores (e : Bytes) : Nat := leVal (sliceB e 0x50 32)
def lParam (e : Bytes) : Nat := fld (eBody e 0x30) 47 0
def lQwRec (e : Bytes) : Nat := fld (eBody e 0x38) 63 52
def lQwV (e : Bytes) : Bool := bitOf (eBody e 0x38) 51
def lAlt (e : Bytes) : Nat := fld (eBody e 0x38) 47 0

/-- The cores of a launch in ascending order. -/
def launchCores (e : Bytes) : List Nat := bitsOf 256 (lCores e)

/-- The blocks of a launch handed to the admission queues: block i to core k_(i mod m) (R483). -/
def handOut (s : State) (ctx : Nat) (l : Nat × Nat) (e param : Bytes) (entry : Nat) : State :=
  let ks := launchCores e
  (List.range (lBlocks e)).foldl
    (fun s i =>
      let b : AdmBlock :=
        { ctx := ctx, launch := l, bid := i, g := lG e, n := lN e, u := lU e, entry := entry, param := param }
      modCore s (ks.getD (i % ks.length) 0) fun k => { k with admQ := k.admQ ++ [b] }) s

/-- Cores that ran a launch. -/
def ranOn (e : Bytes) : List Nat := (launchCores e).take (lBlocks e)

/-- Address of the quantised tensor record that a launch names (R253, R272). -/
def qwRecord (s : State) (e : Bytes) : Nat := s.qw.tblBase.toNat + 64 * lQwRec e

/-- Whether any saturation count of the launch's cores exceeds a limit (R272). -/
def satAbove (s : State) (cs : List Nat) (limit : Nat) : Bool :=
  cs.any fun c =>
    let p := (coreOf s c).press
    decide (limit < p.satOther.toNat) || p.sat.any fun kv => decide (limit < fld kv.2.toNat 31 0)

/-- The saturation tables of some cores cleared (R272); OVF of PRESS_SAT_CTL stays (DESIGN CHOICE, log entry 121). -/
def satClear (s : State) (cs : List Nat) : State :=
  cs.foldl (fun s c => modPress s c fun p => { p with sat := [], satOther := 0 }) s

/-- LAUNCH_BLOCKS_END (R272, R327, R483): the last block has ended and every write of the launch's work is performed. -/
def execLaunchBlocksEnd (q seq : Nat) (s : State) : Res := onHub s <|
  .next (
    match queue? s q, cmd? s q seq with
    | some x, some c =>
      if !c.ran || c.left ≠ 0 || c.st.isSome || eOpc c.entry ≠ 1 || launchBusy s q seq then s
      else
        let r := qwRecord s c.entry
        let own := lQwV c.entry && fld (rdNum s r 8) 13 12 == 1
        let again := own && !c.rerun && satAbove s (ranOn c.entry) (fld (rdNum s (r + 0x28) 8) 31 0)
        let s := if own then satClear s (ranOn c.entry) else s
        if again then
          let s := modCmd s q seq fun c => { c with left := lBlocks c.entry, rerun := true, fault := none }
          handOut s (x.ctx.getD 0) (q, seq) c.entry c.param (lAlt c.entry)
        else finish s q seq (c.fault.getD .ok)
    | _, _ => s)

end Sys2Proof.Machine
end

