-- ==== Sys2Proof/Machine/Queues.lean ====
section
/-! DEFINITION. Queues: doorbells and admission (R478, R479), the start of commands (R481, R488, R492), the
commands of context queues (R483, R484), aborts (R500), retirement (R480) and residency (R491, R493). -/

namespace Sys2Proof.Machine

/-! ### Residency (R491) -/

/-- Slots held by contexts and by queues. -/
def ctxSlots (s : State) : Nat := (s.obj.ctxs.filter fun kv => kv.2.slot).length
def queueSlots (s : State) : Nat := (s.obj.queues.filter fun kv => kv.2.slot).length

/-- Whether a queue or a context has work that waits for a slot (R491). -/
def queueNeeds (x : Queue) : Bool := !x.slot && (x.bell.isSome || x.cmds.any Cmd.waiting)
def ctxNeeds (s : State) (i : Nat) (x : Context) : Bool :=
  !x.slot && s.obj.queues.any fun kv => kv.2.ctx == some i && kv.2.cmds.any Cmd.waiting

/-! ### Admission (R478, R479) -/

/-- Operations of context queues and of admin queues (R482). -/
def opcOk (admin : Bool) (opc : Nat) : Bool :=
  if admin then decide (0x20 ≤ opc) && decide (opc ≤ 0x2C) else decide (1 ≤ opc) && decide (opc ≤ 3)

/-- Check 3: the entry header (R477, R479). -/
def headerOk (admin : Bool) (e : Bytes) : Bool :=
  opcOk admin (eOpc e) && eVer e == 1 && decide (eNobj e ≤ 6) &&
    fld (eWord e 0) 63 36 == 0 && fld (eWord e 0) 31 19 == 0 && fld (eWord e 8) 63 32 == 0 && fld (eWord e 0x18) 63 32 == 0

/-- Contexts that a session owns. -/
def ownCtxs (s : State) (sess : Nat) : List Nat := (s.obj.ctxs.filter fun kv => kv.2.sess = sess).map Prod.fst

/-- Whether a handle is valid and held for a queue: by its context, or by one of the session's (R479). -/
def memHeld (s : State) (x : Queue) (h : Nat) : Bool :=
  match resolve s .memory h with
  | none => false
  | some i => (match x.ctx with | some c => [c] | none => ownCtxs s x.sess).any fun c => (memHolders s i).contains c
def fenceHeld (s : State) (x : Queue) (h : Nat) : Bool :=
  match resolve s .fence h with
  | none => false
  | some i => (match x.ctx with | some c => [c] | none => ownCtxs s x.sess).any fun c => (fenceHolders s i).contains c

/-- Check 4: every handle that the entry names (R471, R479). -/
def handlesOk (s : State) (x : Queue) (e : Bytes) : Bool :=
  (List.range (eNobj e)).all (fun i => memHeld s x (eObj e i)) &&
    (!eWaitEn e || fenceHeld s x (eWaitFence e)) && (eSigFence e == 0 || fenceHeld s x (eSigFence e))

/-- Check 5: what early service lacks (R518): cores outside vat 0, and JOB_JOIN. -/
def earlyLacks (e : Bytes) : Bool :=
  eOpc e == 0x2B || (eOpc e == 1 && (launchCores e).any fun c => decide (64 ≤ c))

/-- The status of an entry at admission (R479). -/
def admitStatus (s : State) (x : Queue) (addr : Nat) (e : Bytes) : Option Status :=
  let lost := match x.ctx with | some c => (match ctx? s c with | some k => k.state == 2 | none => true) | none => false
  if lost then some .contextLost
  else if isBad s addr 128 then some .memPoison
  else if !headerOk x.ctx.isNone e then some .descInvalid
  else if !handlesOk s x e then some .handleInvalid
  else if !fullService s && earlyLacks e then some .earlyService
  else none

/-- One entry admitted: it takes its references, or retires at once with its status (R479). -/
def admitOne (s : State) (q : Nat) : State :=
  match queue? s q with
  | none => s
  | some x =>
    let seq := x.adm.toNat
    let addr := x.ring + 128 * (seq % 2 ^ x.k)
    let e := rdBytes s addr 128
    let st := admitStatus s x addr e
    let s := statusMet s (st.getD .ok) [(addr, 128)] 0 x.ctx
    let c : Cmd :=
      { seq := seq, entry := e, started := false, st := st, result := 0, left := 0, rerun := false, fault := none,
        waits := false, slot := false, sat := none,
        sigOk := st.isNone || (eSigFence e != 0 && fenceHeld s x (eSigFence e)), refs := st.isNone, ran := false, param := [] }
    let s := modQueue s q fun x => { x with adm := x.adm + 1, cmds := x.cmds ++ [c] }
    match st with
    | none => settleWait (entryRefs s e true) q
    | some _ => doRetire s q seq

/-- Commands ADM to PI - 1 admitted, or the doorbell dropped and counted (R478). -/
def admitTo (s : State) (q pi : Nat) : State :=
  match queue? s q with
  | none => s
  | some x =>
    let d := subMod 32 pi x.adm.toNat
    if 2 ^ 31 ≤ d then objDrop s 48
    else if 2 ^ x.k < subMod 32 pi x.ri.toNat then objDrop s 32
    else (List.range d).foldl (fun s _ => admitOne s q) s

/-- The lease of a queue's session renewed (R467). -/
def renewLease (s : State) (q : Nat) : State :=
  match queue? s q with
  | some x => modSess s x.sess fun k => { k with renewed := now s }
  | none => s

/-- A write of QDB_RING (R471, R478, R491). -/
def ringBell (s : State) (q : Nat) (v : Dword) : State :=
  match queue? s q with
  | none => objDrop s 48
  | some x =>
    let s := renewLease s q
    if x.gen.toNat ≠ fld v.toNat 63 56 || x.state = 3 then objDrop s 48
    else if !x.slot then
      modQueue (overrun s 3 (s.obj.queues.any fun kv => kv.2.bell.isSome)) q fun x => { x with bell := some (BitVec.ofNat 32 v.toNat) }
    else admitTo s q (fld v.toNat 31 0)

/-- Whether an agent reaches the doorbell page of a queue (R33, R468, R478, R495). -/
def bellOpen (s : State) (who : Agent) (q : Nat) : Bool :=
  match who with
  | .rind => true
  | .program c =>
    match queue? s q with
    | some x => x.ctx.isSome && x.ctx == (coreOf s c).ctx
    | none => false
  | .client n =>
    match queue? s q, mget? s.obj.qps n with
    | some x, some p => p.sess == some x.sess
    | _, _ => false

/-- An access that an agent may not make, reported as R30 says. -/
def agentRefused (s : State) (who : Agent) : State :=
  match who with
  | .rind => s
  | .program c =>
    match (coreOf s c).ctx with
    | some i => loseContext s i .addressFault (some c) none
    | none => s
  | .client n => nakQp s n .access

/-- DOORBELL (R478). -/
def execDoorbell (who : Agent) (q : Nat) (v : Dword) (s : State) : Res := onHub s <|
  onUnit 16384 q (.next (if bellOpen s who q then ringBell s q v else agentRefused s who))

/-- QDB_LEASE (R467). -/
def execQdbLease (who : Agent) (q : Nat) (s : State) : Res := onHub s <|
  onUnit 16384 q (.next (if bellOpen s who q then renewLease s q else agentRefused s who))

/-! ### Start (R481, R487, R491, R492) -/

/-- The head command of a queue, where its context lives and neither AFTER_PREV, under which the previous command has
retired, nor its wait holds it back (R481). -/
def headReady (s : State) (x : Queue) : Option Cmd :=
  match headCmd x with
  | none => none
  | some c =>
    let ctxOk := match x.ctx with
      | some i => (match ctx? s i with | some k => k.state == 1 | none => false)
      | none => true
    let prevOk := !eAfterPrev c.entry || x.cmds.all fun d => decide (subMod 32 c.seq d.seq ≠ 1)
    if ctxOk && prevOk && (!eWaitEn c.entry || c.sat.isSome) then some c else none

/-- Whether the context of a queue holds its slot; an admin queue has none and needs none. -/
def ctxSlotOk (s : State) (x : Queue) : Bool :=
  match x.ctx with
  | some i => (match ctx? s i with | some k => k.slot | none => false)
  | none => true

/-- The head command of a queue that may start but for arbitration. -/
def startable (s : State) (x : Queue) : Option Cmd := if x.slot && ctxSlotOk s x then headReady s x else none

/-- Whether two commands contend: launches for a core, ladle commands for a ladle (R492). -/
def contend2 (a b : Bytes) : Bool :=
  (eOpc a == 1 && eOpc b == 1 && (lCores a &&& lCores b) != 0) || (eOpc a == 2 && eOpc b == 2)

/-- The context queues whose startable head contends with a given one, that queue included. -/
def rivals (s : State) (q : Nat) (c : Cmd) : List (Nat × Queue) :=
  s.obj.queues.filter fun kv =>
    kv.1 == q || (kv.2.ctx.isSome && match startable s kv.2 with | some d => contend2 c.entry d.entry | none => false)

/-- Whether any two startable heads contend (R38, R492). -/
def contention (s : State) : Bool :=
  s.obj.queues.any fun kv =>
    match kv.2.ctx, startable s kv.2 with
    | some _, some c => decide (2 ≤ (rivals s kv.1 c).length)
    | _, _ => false

/-- The pick of the hub arbiter: highest PRIO, then the first index above the last one served (R492). -/
def arbPick (s : State) (rs : List (Nat × Queue)) : Option Nat :=
  let top := rs.foldl (fun m kv => max m kv.2.prio) 0
  let ts := (rs.filter fun kv => kv.2.prio = top).map Prod.fst
  match ts.find? fun i => decide (s.obj.lastQ < i) with
  | some i => some i
  | none => ts.head?

/-- The up to 64 handles of the latest posted list of a function, as far as its object reaches; none when none is
posted (R485, R492). -/
def postList (s : State) (fn : Nat) : List Nat :=
  match s.obj.posts.find? fun p => p.fn == fn with
  | none => []
  | some p =>
    match mem? s p.obj with
    | none => []
    | some m => (List.range (min 64 ((m.len * 65536 - p.off) / 4))).map fun i => rdNum s (m.base + p.off + 4 * i) 4

/-- Whether the mode of queue arbitration lets queue q go first among its rivals (R492, R38). -/
def mayGo (s : State) (q : Nat) (rs : List (Nat × Queue)) : Bool :=
  if rs.length ≤ 1 then true
  else match dutyMode s 0 with
    | 0 => arbPick s rs == some q
    | 1 => true
    | _ =>
      if s.obj.rindTurn.contains 0 then true
      else
        !controllerGone s && ((postList s 0).findSome? fun h =>
          (resolve s .queue h).bind fun i => if rs.any fun kv => kv.1 == i then some i else none) == some q

/-- The queues whose head lacks only a slot of a kind, its queue's or its context's; the head of a queue that has kept its
doorbell is not admitted yet and counts as ready (R491, log entry 123). -/
def slotWaiters (s : State) (queue : Bool) : List (Nat × Queue) :=
  s.obj.queues.filter fun kv =>
    if queue then !kv.2.slot && (kv.2.bell.isSome || (headReady s kv.2).isSome)
    else kv.2.slot && (headReady s kv.2).isSome && !ctxSlotOk s kv.2

/-- Whether startable heads contend for a slot: more queues or contexts wait for one than are free (R38, R492). -/
def slotContend (s : State) (queue : Bool) : Bool :=
  let w := slotWaiters s queue
  let n := if queue then w.length else ((w.filterMap fun kv => kv.2.ctx).eraseDups).length
  let free := if queue then 64 - queueSlots s else 48 - ctxSlots s
  decide (2 ≤ n) && decide (free < n)

/-- Whether queue arbitration lets a queue or a context take a slot (R492). -/
def mayTakeSlot (s : State) (queue : Bool) (idx : Nat) : Bool :=
  let w := slotWaiters s queue
  !slotContend s queue || w.any fun kv => (if queue then kv.1 == idx else kv.2.ctx == some idx) && mayGo s kv.1 w

/-- One decision of queue arbitration made (R38). -/
def arbDone (o : Objects) : Objects := { o with rindTurn := o.rindTurn.filter fun f => f ≠ 0, contend := mdel o.contend 0 }

/-- The command marked as started; the wait of the next head is looked at (R475, R488). -/
def markStarted (s : State) (q seq : Nat) : State :=
  let s := modCmd s q seq fun c => { c with started := true }
  let s := modQueue s q fun x => { x with started := x.started + 1, stamp := s.obj.stamp + 1 }
  let s := match queue? s q with
    | some x => (match x.ctx with
      | some i => modCtx s i fun k => { k with stamp := s.obj.stamp + 1 }
      | none => s)
    | none => s
  settleWait (modObj s fun o => { arbDone o with lastQ := q, stamp := o.stamp + 1 }) q

/-- Whether a STRICT command finds its wait satisfied with a status other than OK (R487). -/
def depFailed (c : Cmd) : Bool :=
  eWaitEn c.entry && eStrict c.entry && (match c.sat with | some st => st != .ok | none => false)

/-- COMMAND_START (R481, R487, R492): the head command of a context queue. -/
def execCommandStart (q : Nat) (s : State) : Res := onHub s <|
  .next (
    match queue? s q with
    | none => s
    | some x =>
      if x.ctx.isNone then s
      else match startable s x with
        | none => s
        | some c =>
          if depFailed c then finish s q c.seq .depFailed
          else if mayGo s q (rivals s q c) then markStarted s q c.seq else s)

/-! ### Retirement (R480) -/

/-- COMMAND_RETIRE (R480): a command whose status is chosen retires once its work has ended. -/
def execCommandRetire (q seq : Nat) (s : State) : Res := onHub s <|
  .next (
    match cmd? s q seq with
    | some c => if c.st.isSome && (!c.started || !launchBusy s q seq) then doRetire s q seq else s
    | none => s)

/-! ### Commands of context queues (R483, R484) -/

/-- A started command of a queue whose work has not been handed out and whose operation is `opc`. -/
def freshCmd (s : State) (q seq opc : Nat) : Option (Queue × Cmd) :=
  match queue? s q, cmd? s q seq with
  | some x, some c => if x.ctx.isSome && c.started && !c.ran && c.st.isNone && eOpc c.entry == opc then some (x, c) else none
  | _, _ => none

/-- Whether a launch is refused (R152, R483). -/
def launchBad (k : Context) (e : Bytes) : Bool :=
  lN e == 0 || decide (384 < lU e) || decide (512 < lG e * unitsOf (lN e)) ||
    lCores e == 0 || (lCores e &&& k.cores.toNat) != lCores e || lEntry e % 8 != 0 || (lQwV e && lAlt e % 8 != 0)

/-- LAUNCH (R483). -/
def execLaunch (q seq : Nat) (s : State) : Res := onHub s <|
  .next (
    match freshCmd s q seq 1 with
    | none => s
    | some (x, c) =>
      let i := x.ctx.getD 0
      match ctx? s i with
      | none => s
      | some k =>
        if launchBad k c.entry then finish s q seq .launchInvalid
        else
          let a := lParam c.entry
          match (match memCheck s a 64 with | some st => some st | none => if isBad s a 64 then some .memPoison else none) with
          | some st =>
            let s := modCmd (statusMet s st [(a, 64)] 0 (some i)) q seq fun c => { c with fault := some st }
            loseContext s i st none (some (q, seq))
          | none =>
            let p := rdBytes s a 64
            let s := modCmd s q seq fun c => { c with ran := true, left := lBlocks c.entry, param := p }
            handOut s i (q, seq) c.entry p (lEntry c.entry))

/-- The ladle command in the body of a LADLE command (R482, R484). -/
def ladleOf (s : State) (x : Queue) (q seq : Nat) (e : Bytes) : LadleCmd :=
  { words := (List.range 8).map fun w => BitVec.ofNat 64 (eBody e (8 * w)), src := (1, q), order := s.ladleOrder,
    prev := ladlePrev s (1, q), ctx := x.ctx.getD 0, core := none, cmd := some (q, seq), n := 0 }

/-- A ladle command of the hub's sources queued (R301). -/
def queueLadle (s : State) (l : LadleCmd) : State :=
  ladleSent { s with hubLadles := s.hubLadles ++ [{ l with order := s.ladleOrder, prev := ladlePrev s l.src }] } l.src

/-- LADLE (R484): FENCE_EN of the body must be 0 (R482). -/
def execLadle (q seq : Nat) (s : State) : Res := onHub s <|
  .next (
    match freshCmd s q seq 2 with
    | none => s
    | some (x, c) =>
      let l := ladleOf s x q seq c.entry
      if bitOf (l.words.getD 0 0).toNat 13 then finish s q seq .descInvalid
      else queueLadle (modCmd s q seq fun c => { c with ran := true }) l)

/-- SIGNAL (R484). -/
def execSignal (q seq : Nat) (s : State) : Res := onHub s <|
  .next (match freshCmd s q seq 3 with | none => s | some _ => finish s q seq .ok)

/-! ### Stopping a command (R500, R501) -/

/-- The blocks and waiting blocks of a launch stopped on every core, also those that a switch has saved (R491, R500). -/
def stopLaunch (s : State) (l : Nat × Nat) : State :=
  let stop (kv : Nat × Core) : Nat × Core :=
    let k := haltBlocks kv.2 fun b => b.launch == l
    (kv.1, { k with admQ := k.admQ.filter fun b => b.launch ≠ l })
  modObj { s with cores := s.cores.map stop } fun o =>
    { o with ctxs := o.ctxs.map fun kv => (kv.1, { kv.2 with saved := kv.2.saved.map stop }) }

/-- A started command stopped with its status chosen: the groups of a LAUNCH end and its issued work completes, a LADLE
stops at its next block (R500); it retires at once when nothing of it is left. -/
def stopCmd (s : State) (q seq : Nat) (st : Status) : State :=
  let s := commit s q seq st
  let s := stopLaunch s (q, seq)
  let s := cancelLadles s fun c => c.core.isNone && c.cmd == some (q, seq)
  if launchBusy s q seq then s else doRetire s q seq

/-- A command of a queue ended with a status, whether it waits or runs (R500, R501). -/
def endCmd (s : State) (q : Nat) (c : Cmd) (st : Status) : State :=
  if c.st.isSome then s
  else if c.started then stopCmd s q c.seq st
  else finish s q c.seq st

/-- A queue destroyed: DESTROYING, every unretired command CANCELLED (R501). -/
def destroyQueue (s : State) (q : Nat) : State :=
  match queue? s q with
  | none => s
  | some x =>
    let s := modQueue s q fun x => { x with state := 3, bell := none }
    let s := x.cmds.foldl (fun s c => commit s q c.seq .cancelled) s
    let s := x.cmds.foldl (fun s c => if c.started then s else doRetire s q c.seq) s
    let s := x.cmds.foldl (fun s c => if c.started && c.st.isNone then stopCmd s q c.seq .cancelled else s) s
    settleQueue s q

/-! ### Slots (R491, R493) -/

/-- SLOT_TAKE (R491): a queue or a context with waiting work takes a free slot, the one that queue arbitration picks
where startable heads contend for it (R492); a doorbell that was kept is then admitted. -/
def execSlotTake (queue : Bool) (idx : Nat) (s : State) : Res := onHub s <|
  .next (
    if queue then
      match queue? s idx with
      | none => s
      | some x =>
        if queueNeeds x && queueSlots s < 64 && mayTakeSlot s true idx then
          let s := if slotContend s true then modObj s arbDone else s
          let s := modQueue s idx fun x => { x with slot := true, bell := none, stamp := s.obj.stamp + 1 }
          let s := modObj s fun o => { o with stamp := o.stamp + 1 }
          match x.bell with
          | some pi => admitTo s idx pi.toNat
          | none => s
        else s
    else
      match ctx? s idx with
      | none => s
      | some x =>
        if ctxNeeds s idx x && ctxSlots s < 48 && mayTakeSlot s false idx then
          let s := if slotContend s false then modObj s arbDone else s
          let s := modCtx s idx fun x => { x with slot := true, stamp := s.obj.stamp + 1 }
          modObj s fun o => { o with stamp := o.stamp + 1 }
        else s)

/-- Whether a started command of a queue has not retired. -/
def hasStarted (x : Queue) : Bool := x.cmds.any fun c => c.started

/-- Queues and contexts that may be evicted, each with its stamp (R493). -/
def evictable (s : State) (queue : Bool) : List (Nat × Nat) :=
  if queue then (s.obj.queues.filter fun kv => kv.2.slot && !hasStarted kv.2).map fun kv => (kv.1, kv.2.stamp)
  else
    (s.obj.ctxs.filter fun kv =>
      kv.2.slot && !(s.cores.any fun k => k.2.ctx == some kv.1) &&
        !(s.obj.queues.any fun x => x.2.ctx == some kv.1 && (x.2.slot || hasStarted x.2))).map fun kv => (kv.1, kv.2.stamp)

/-- Whether a slot of a kind is needed and none is free (R38, R493). -/
def slotNeeded (s : State) (queue : Bool) : Bool :=
  if queue then decide (64 ≤ queueSlots s) && s.obj.queues.any fun kv => queueNeeds kv.2
  else decide (48 ≤ ctxSlots s) && s.obj.ctxs.any fun kv => ctxNeeds s kv.1 kv.2

/-- The slot not dispatched from for the longest time. -/
def oldest : List (Nat × Nat) → Option (Nat × Nat)
  | [] => none
  | x :: xs => match oldest xs with
    | some y => some (if y.2 < x.2 then y else x)
    | none => some x

/-- Whether the eviction mode lets a slot be the victim (R493). -/
def mayEvict (s : State) (queue : Bool) (idx : Nat) : Bool :=
  let es := evictable s queue
  let ok := es.any fun e => e.1 == idx
  match dutyMode s 4 with
  | 0 => (oldest es).map Prod.fst == some idx
  | 1 => ok
  | _ =>
    match (if controllerGone s then [] else postList s 4).findSome? fun h =>
        (resolve s (if queue then .queue else .context) h).bind fun i => if es.any fun e => e.1 == i then some i else none with
    | some i => if s.obj.rindTurn.contains 4 then ok else i == idx
    | none => ok && s.obj.rindTurn.contains 4

/-- SLOT_EVICT (R493). -/
def execSlotEvict (queue : Bool) (idx : Nat) (s : State) : Res := onHub s <|
  .next (
    if slotNeeded s queue && mayEvict s queue idx then
      let s := modObj s fun o => { o with rindTurn := o.rindTurn.filter fun f => f ≠ 4, contend := mdel o.contend 4 }
      if queue then modQueue s idx fun x => { x with slot := false } else modCtx s idx fun x => { x with slot := false }
    else s)

/-! ### Quarantine (R470) -/

/-- Handles in the body of an admin command (R482, R485, R497). -/
def bodyHandles (e : Bytes) : List Nat :=
  let lo (o : Nat) : Nat := fld (eBody e o) 31 0
  let hi (o : Nat) : Nat := fld (eBody e o) 63 32
  match eOpc e with
  | 0x20 => [lo 0x28]
  | 0x21 | 0x22 | 0x23 | 0x24 | 0x27 | 0x2A => [lo 0]
  | 0x25 | 0x28 => [lo 0, lo 8]
  | 0x26 => [lo 0, lo 8, lo 0x10]
  | 0x29 => [lo 0, hi 8]
  | 0x2B => [hi 0, lo 8]
  | 0x2C =>
    match fld (eBody e 0) 7 0 with
    | 2 => [hi 0x10]
    | 4 => [hi 8]
    | 5 => [hi 0x10, lo 0x18]
    | _ => []
  | _ => []

/-- Whether an admitted, unretired command names an index. -/
def commandNames (s : State) (k : ObjKind) (i : Nat) : Bool :=
  let is (h : Nat) : Bool := fld h 31 28 == kindTy k && handleIdx k h == i
  s.obj.queues.any fun kv =>
    kv.2.cmds.any fun c =>
      let e := c.entry
      (List.range (eNobj e)).any (fun j => is (eObj e j)) || (eWaitEn e && is (eWaitFence e)) || is (eSigFence e) ||
        (bodyHandles e).any is

/-- QUARANTINE_END (R470). -/
def execQuarantineEnd (k : ObjKind) (idx : Nat) (s : State) : Res := onHub s <|
  .next (
    let p := poolOf s.obj k
    match p.quar.find? fun x => x.1 == idx with
    | some x =>
      if s.obj.quar.toNat ≤ subMod 64 (now s) x.2 && !commandNames s k idx then
        modObj s fun o => setPool o k { p with quar := p.quar.filter fun y => y.1 ≠ idx, free := p.free ++ [idx] }
      else s
    | none => s)

end Sys2Proof.Machine
end

