-- ==== Sys2Proof/Machine/Admin.lean ====
section
/-! DEFINITION. Admin commands on contexts, queues, memory objects and fences (R482, R494, R496, R497, R500,
R501, R617), performed by the object sequencer one at a time (R479). -/

namespace Sys2Proof.Machine

/-- What an admin command ends with: the state, its status and its RESULT. -/
abbrev AdminEnd := State × Status × Nat

/-- The head command of an admin queue performed, when its operation is `opc`; a STRICT command whose wait
found an error does not run (R482, R487). -/
def adminCmd (s : State) (q opc : Nat) (ok : Bytes → Bool) (run : State → Queue → Cmd → AdminEnd) : Res :=
  .next (
    match queue? s q with
    | none => s
    | some x =>
      if x.ctx.isSome then s
      else match startable s x with
        | none => s
        | some c =>
          if eOpc c.entry ≠ opc || !ok c.entry then s
          else if depFailed c then finish s q c.seq .depFailed
          else
            let s := markStarted s q c.seq
            let r := run s x c
            finish r.1 q c.seq r.2.1 r.2.2)

/-- The same without a further test of the entry. -/
def admin (s : State) (q opc : Nat) (run : State → Queue → Cmd → AdminEnd) : Res := adminCmd s q opc (fun _ => true) run

/-- A refused admin command. -/
def refuse (s : State) (st : Status) : AdminEnd := (s, st, 0)

/-- A handle in the low half of a body word. -/
def bHandle (e : Bytes) (off : Nat) : Nat := fld (eBody e off) 31 0

/-- The context that a body names, owned by the session of the queue (R482). -/
def ownedCtx (s : State) (x : Queue) (h : Nat) (run : Nat → Context → AdminEnd) : AdminEnd :=
  match resolve s .context h with
  | none => refuse s .handleInvalid
  | some i =>
    match ctx? s i with
    | none => refuse s .handleInvalid
    | some k => if k.sess = x.sess then run i k else refuse s .notPermitted

/-! ### Contexts and queues -/

/-- Bytes of a save slot (R491). -/
def saveSlot : Nat := 29360128

/-- A new context (R472). -/
def newCtx (gen : BitVec 8) (job cores sess save : Nat) (obj : Option Nat) : Context :=
  { state := 1, gen := gen, job := BitVec.ofNat 16 job, loss := .ok, sess := sess, lossCore := 0xFFFF,
    cores := BitVec.ofNat 256 cores, issued := 0, resident := 0, pressBusy := 0, wheyBusy := 0, ladleBytes := 0,
    save := save, saveObj := obj, lossQueue := 0, lossSeq := 0, mems := obj.toList, fences := [], slot := false,
    stamp := 0, dying := false, base := [], saved := [] }

/-- CTX_CREATE (R482, R617). -/
def execCtxCreate (q : Nat) (s : State) : Res := onHub s <|
  admin s q 0x20 fun s x c =>
    let cores := leVal (sliceB c.entry 0x48 32)
    let h := bHandle c.entry 0x28
    let make (save : Nat) (obj : Option Nat) : AdminEnd :=
      match nextIdx s .context with
      | none => refuse s .noResource
      | some i =>
        let g := nextGen s .context i
        let k := { newCtx g (fld (eBody c.entry 0) 15 0) cores x.sess save obj with tenant := tenantOf s x.sess }
        (modObj (takeIdx s .context i) fun o => { o with ctxs := mput o.ctxs i k }, .ok, handleOf .context g i)
    if cores = 0 then make 0 none
    else if !memHeld s x h then refuse s .handleInvalid
    else
      let m := handleIdx .memory h
      match mem? s m with
      | none => refuse s .handleInvalid
      | some o => if o.len * 65536 < saveSlot * popCount 256 cores then refuse s .descInvalid else make o.base (some m)

/-- A context destroyed with its queues and holds; it is freed with the last of its queues (R501). -/
def destroyCtx (s : State) (i : Nat) : State :=
  let qs := (s.obj.queues.filter fun kv => kv.2.ctx == some i).map Prod.fst
  let s := qs.foldl (fun s q => destroyQueue s q) s
  let s := endHolds s i
  let s := modCtx s i fun k => { k with dying := true }
  if (ctx? s i).isSome && !(s.obj.queues.any fun kv => kv.2.ctx == some i) then freeCtx s i else s

/-- CTX_DESTROY (R501). -/
def execCtxDestroy (q : Nat) (s : State) : Res := onHub s <|
  admin s q 0x21 fun s x c => ownedCtx s x (bHandle c.entry 0) fun i _ => (destroyCtx s i, .ok, 0)

/-- Whether a range lies wholly in a memory object that a context holds, in HBM or die-shared memory (R476). -/
def ringOk (s : State) (k : Context) (a n : Nat) : Bool :=
  let tier := match regionOf a with | .hbm => true | .shared _ => true | _ => false
  tier && k.mems.any fun m =>
    match mem? s m with
    | some o => decide (o.base ≤ a) && decide (a + n ≤ o.base + o.len * 65536)
    | none => false

/-- QUEUE_CREATE (R476, R617). -/
def execQueueCreate (q : Nat) (s : State) : Res := onHub s <|
  admin s q 0x22 fun s x c => ownedCtx s x (bHandle c.entry 0) fun i k =>
    let ring := fld (eBody c.entry 8) 47 0
    let cpl := fld (eBody c.entry 0x10) 47 0
    let n := fld (eBody c.entry 0x18) 4 0
    if n < 4 || 16 < n || ring % 128 ≠ 0 || cpl % 16 ≠ 0 || !ringOk s k ring (128 * 2 ^ n) || !ringOk s k cpl (16 * 2 ^ n) then
      refuse s .descInvalid
    else match nextIdx s .queue with
      | none => refuse s .noResource
      | some j =>
        let g := nextGen s .queue j
        let y : Queue :=
          { state := 1, gen := g, k := n, prio := fld (eBody c.entry 0x18) 9 8, ctx := some i, sess := x.sess, ring := ring,
            cpl := cpl, ri := 0, adm := 0, started := 0, cmds := [], bell := none, slot := false, stamp := 0 }
        (modObj (takeIdx s .queue j) fun o => { o with queues := mput o.queues j y }, .ok, handleOf .queue g j)

/-- The queue that a body names, of the session of the issuing queue (R482, R501). -/
def ownedQueue (s : State) (x : Queue) (h : Nat) (run : Nat → Queue → AdminEnd) : AdminEnd :=
  match resolve s .queue h with
  | none => refuse s .handleInvalid
  | some j =>
    match queue? s j with
    | none => refuse s .handleInvalid
    | some y => if y.sess = x.sess then run j y else refuse s .notPermitted

/-- QUEUE_DESTROY (R501): an admin queue is not destroyed by it. -/
def execQueueDestroy (q : Nat) (s : State) : Res := onHub s <|
  admin s q 0x23 fun s x c => ownedQueue s x (bHandle c.entry 0) fun j y =>
    if y.ctx.isNone then refuse s .notPermitted else (destroyQueue s j, .ok, 0)

/-! ### Memory objects and fences -/

/-- Whether a placement obeys PLACE and meets no other object (R494). -/
def placeOk (s : State) (place vat a n : Nat) : Bool :=
  let home := decide (0xC000000000 * vat ≤ a) && decide (a + n ≤ 0xC000000000 * (vat + 1))
  let where_ := match place with
    | 0 => decide (a + n ≤ 0x030000000000)
    | 1 => home
    | 2 => decide (0x040000000000 ≤ a) && decide (a + n ≤ 0x080000000000)
    | _ => decide (0x0A0000000000 + 0x20000000 * vat ≤ a) && decide (a + n ≤ 0x0A0000000000 + 0x20000000 * (vat + 1))
  a % 65536 == 0 && where_ &&
    s.obj.mems.all fun kv => decide (a + n ≤ kv.2.base) || decide (kv.2.base + kv.2.len * 65536 ≤ a)

/-- MEM_ALLOC (R494): `base` is where the rind places the object, none when there is no room. A placement that
breaks PLACE or meets another object does not come about. -/
def execMemAlloc (q : Nat) (base : Option Nat) (s : State) : Res := onHub s <|
  let fits (e : Bytes) : Bool :=
    let n := 65536 * ceilDiv (eBody e 8) 65536
    let place := fld (eBody e 0x10) 3 0
    match base with
    | some a => eBody e 8 == 0 || decide (3 < place) || placeOk s place (fld (eBody e 0x10) 5 4) a n
    | none => true
  adminCmd s q 0x24 fits fun s x c => ownedCtx s x (bHandle c.entry 0) fun i _ =>
    let len := eBody c.entry 8
    let place := fld (eBody c.entry 0x10) 3 0
    if len = 0 || 3 < place then refuse s .descInvalid
    else match base, nextIdx s .memory with
      | some a, some j =>
        let g := nextGen s .memory j
        let m : MemObj :=
          { state := 1, gen := g, base := a, owner := i, rdma := BitVec.ofNat 3 (fld (eBody c.entry 0x10) 10 8),
            place := place, len := ceilDiv len 65536, refs := 0, tenant := match ctx? s i with | some k => k.tenant | none => 0 }
        let s := modObj (takeIdx s .memory j) fun o => { o with mems := mput o.mems j m }
        let s := modCtx s i fun k => { k with mems := k.mems ++ [j] }
        (s, .ok, putFld (handleOf .memory g j) 32 32 + a / 65536)
      | _, _ => refuse s .noResource

/-- One hold on a memory object or a fence ended. -/
def dropMem (s : State) (i m : Nat) : State := settleMem (modCtx s i fun k => { k with mems := k.mems.filter fun x => x ≠ m }) m
def dropFence (s : State) (i f : Nat) : State :=
  settleFence (modCtx s i fun k => { k with fences := k.fences.filter fun x => x ≠ f }) f

/-- MEM_FREE (R496). -/
def execMemFree (q : Nat) (s : State) : Res := onHub s <|
  admin s q 0x25 fun s x c => ownedCtx s x (bHandle c.entry 0) fun i k =>
    match resolve s .memory (bHandle c.entry 8) with
    | none => refuse s .handleInvalid
    | some m =>
      if !k.mems.contains m then refuse s .handleInvalid
      else if bitOf (eBody c.entry 0x10) 0 then
        if (mem? s m).map (·.owner) == some i then ((memHolders s m).foldl (fun s j => dropMem s j m) s, .ok, 0)
        else refuse s .notPermitted
      else (dropMem s i m, .ok, 0)

/-- SHARE (R482): the second context may belong to another session (R499). -/
def execShare (q : Nat) (s : State) : Res := onHub s <|
  admin s q 0x26 fun s x c => ownedCtx s x (bHandle c.entry 0) fun _ k =>
    let h := bHandle c.entry 0x10
    match resolve s .context (bHandle c.entry 8) with
    | none => refuse s .handleInvalid
    | some j =>
      match resolve s .memory h, resolve s .fence h with
      | some m, _ =>
        if !k.mems.contains m then refuse s .handleInvalid
        else (modCtx s j fun k => { k with mems := if k.mems.contains m then k.mems else k.mems ++ [m] }, .ok, 0)
      | none, some f =>
        if !k.fences.contains f then refuse s .handleInvalid
        else (syncFence (modCtx s j fun k => { k with fences := if k.fences.contains f then k.fences else k.fences ++ [f] }) f, .ok, 0)
      | none, none => refuse s .handleInvalid

/-- FENCE_CREATE (R482). -/
def execFenceCreate (q : Nat) (s : State) : Res := onHub s <|
  admin s q 0x27 fun s x c => ownedCtx s x (bHandle c.entry 0) fun i _ =>
    match nextIdx s .fence with
    | none => refuse s .noResource
    | some j =>
      let g := nextGen s .fence j
      let f : Fence :=
        { gen := g, value := BitVec.ofNat 64 (eBody c.entry 8), status := .ok, firstErr := .ok, owner := i, waiters := 0, refs := 0 }
      let s := modObj (takeIdx s .fence j) fun o => { o with fences := mput o.fences j f }
      (syncFence (modCtx s i fun k => { k with fences := k.fences ++ [j] }) j, .ok, handleOf .fence g j)

/-- FENCE_DESTROY (R496). -/
def execFenceDestroy (q : Nat) (s : State) : Res := onHub s <|
  admin s q 0x28 fun s x c => ownedCtx s x (bHandle c.entry 0) fun i k =>
    match resolve s .fence (bHandle c.entry 8) with
    | none => refuse s .handleInvalid
    | some f => if k.fences.contains f then (dropFence s i f, .ok, 0) else refuse s .handleInvalid

/-! ### Queries and aborts -/

/-- Bytes of the memory objects in a tier of which a context is a holder (R472). -/
def bytesHeld (s : State) (k : Context) (tier : Region → Bool) : Nat :=
  (k.mems.map fun m => match mem? s m with | some o => if tier (regionOf o.base) then o.len * 65536 else 0 | none => 0).sum

/-- The 80 bytes of a QUERY (R472, R497). -/
def queryB (s : State) (k : Context) : Bytes :=
  let sh := match sess? s k.sess with | some x => handleOf .session x.gen k.sess | none => 0
  wordsB [
    putFld k.state 8 56 + putFld k.job.toNat 16 40 + putFld k.loss.code 16 24 + putFld k.gen.toNat 8 16,
    putFld sh 32 32 + putFld k.lossCore.toNat 16 16,
    k.issued.toNat, k.resident.toNat, k.pressBusy.toNat, k.wheyBusy.toNat, k.ladleBytes.toNat,
    bytesHeld s k (fun r => r == .hbm), bytesHeld s k (fun r => r == .cave),
    bytesHeld s k (fun r => match r with | .shared _ => true | _ => false)]

/-- A record named by handle and offset that lies wholly in a memory object the session holds (R485, R617): its
address, or the status of the refusal. -/
def recordAt (s : State) (x : Queue) (w n : Nat) : Nat × Option Status :=
  let h := fld w 63 32
  if !memHeld s x h then (0, some .handleInvalid)
  else match mem? s (handleIdx .memory h) with
    | none => (0, some .handleInvalid)
    | some o => if o.len * 65536 < fld w 31 0 + n then (0, some .descInvalid) else (o.base + fld w 31 0, none)

/-- Whether a session controls the job (R485, R486). -/
def controls (s : State) (sess : Nat) : Bool := match s.obj.job with | some j => j.2.1 == sess | none => false

/-- What a QUERY finds: the context and where its 80 bytes go, or the status of the refusal (R497). -/
def queryOf (s : State) (x : Queue) (c : Cmd) : Except Status (Context × Nat) :=
  match resolve s .context (bHandle c.entry 0) with
  | none => .error .handleInvalid
  | some i =>
    match ctx? s i with
    | none => .error .handleInvalid
    | some k =>
      if k.sess ≠ x.sess && !controls s x.sess then .error .notPermitted
      else match recordAt s x (eBody c.entry 8) 80 with
        | (_, some st) => .error st
        | (a, none) => .ok (k, a)

/-- Where the QUERY at the head of a queue waits to write its 80 bytes: it retires only once they are performed (R327). -/
def queryWaits (s : State) (q : Nat) : Option Nat :=
  match queue? s q with
  | none => none
  | some x =>
    match startable s x with
    | none => none
    | some c =>
      if x.ctx.isSome || eOpc c.entry ≠ 0x29 || depFailed c then none
      else match queryOf s x c with
        | .ok (_, a) => if writeWaits s a 80 then some a else none
        | .error _ => none

/-- QUERY (R327, R497). -/
def execQuery (q : Nat) (s : State) : Res := onHub s <|
  match queryWaits s q with
  | some a => .next (askRoom s a 80)
  | none =>
    admin s q 0x29 fun s x c =>
      match queryOf s x c with
      | .error st => refuse s st
      | .ok (k, a) => (memWrite s a (queryB s k), .ok, 0)

/-- ABORT (R500). -/
def execAbort (q : Nat) (s : State) : Res := onHub s <|
  admin s q 0x2A fun s x c => ownedQueue s x (bHandle c.entry 0) fun j y =>
    let seq := fld (eBody c.entry 8) 31 0
    if j = q && seq = c.seq then refuse s .descInvalid
    else if subMod 32 seq y.adm.toNat < 2 ^ 31 then refuse s .notFound
    else match y.cmds.find? fun d => d.seq == seq with
      | none => refuse s .alreadyDone
      | some d => if d.st.isSome then refuse s .alreadyDone else (endCmd s j d .aborted, .ok, 0)

end Sys2Proof.Machine
end

