-- ==== Sys2Proof/Machine/HoopMath.lean ====
section
/-! DEFINITION. The arithmetic of one hop of the hoop engine: gradient blocks, alignment, the 20-bit add and
the rescale (R58, R59, R392 to R397), and the votes of a thinned bucket (R60, R61, R402 to R404). -/

namespace Sys2Proof.Machine

/-! ### Gradient blocks -/

/-- A DG16 block: exponent, header bits 19:16, residue and 64 mantissas (R58). -/
structure GBlock where
  x : Nat
  flags : Nat
  res : Nat
  m : List Int
  deriving DecidableEq, Repr

/-- Header flags of R58, from bit 16 on. -/
def gResc : Nat := 1
def gRip : Nat := 2
def gThin : Nat := 4
def gNanSeen : Nat := 8

/-- Element i of a run of two's-complement numbers of `n` bytes. -/
def laneOf (bs : Bytes) (start n i : Nat) : Int := sext (8 * n) (leVal (sliceB bs (start + n * i) n))

/-- The block in 132 bytes (R58). -/
def gRead (bs : Bytes) : GBlock :=
  let h := leVal (sliceB bs 0 4)
  { x := fld h 31 24, flags := fld h 19 16, res := fld h 15 0, m := (List.range 64).map (laneOf bs 4 2) }

/-- The 132 bytes of a block. -/
def gBytes (g : GBlock) : Bytes :=
  leBytes 4 (putFld g.x 8 24 + putFld g.flags 4 16 + putFld g.res 16 0) ++ g.m.flatMap fun v => leBytes 2 (ofInt 16 v)

/-- The residue check of a block (R59, R393). -/
def gOk (g : GBlock) : Bool := g.res == dgResidue g.m

/-- 64 zero lanes. -/
def zeroLanes : List Int := List.replicate 64 0

/-- The NaN block with the other flags as given (R395). -/
def gNan (flags : Nat) : GBlock := { x := 0, flags := gNanSeen + flags % 8, res := 0, m := zeroLanes }

/-- RNE(v / 2^k) (R63, R392, R395). -/
def rneShift (v : Int) (k : Nat) : Int :=
  let r : Int := (roundAt .rne 0 v.natAbs 0 k).1
  if v < 0 then -r else r

/-- An input aligned to exponent `xt`, with RESCALED when it had to be (R392, R396, R397). -/
def gAlign (xt : Nat) (g : GBlock) : GBlock :=
  if xt ≤ g.x then g
  else
    let m := g.m.map fun v => rneShift v (xt - g.x)
    { x := xt, flags := g.flags ||| gResc, res := dgResidue m, m := m }

/-- A sum before the rescale: 20-bit lanes, their exponent, the output's flags, and whether it is a NaN block. -/
structure HopSum where
  lanes : List Int
  x : Nat
  flags : Nat
  nan : Bool
  deriving DecidableEq, Repr

/-- The inputs of a hop added lane by lane (R392, R394, R397); `rip` says that a ripened contribution is among
them. -/
def gAdd (ins : List GBlock) (rip : Bool) : HopSum :=
  let carried := ins.foldl (fun f g => f ||| g.flags) (if rip then gRip else 0)
  if gNanSeen ≤ carried then { lanes := zeroLanes, x := 0, flags := carried % 8, nan := true }
  else
    let xt := ins.foldl (fun x g => max x g.x) 0
    let al := ins.map (gAlign xt)
    { lanes := al.foldl (fun acc g => List.zipWith (· + ·) acc g.m) zeroLanes
      x := xt
      flags := al.foldl (fun f g => f ||| g.flags) carried
      nan := false }

/-- Whether every lane fits a mantissa (R395). -/
def lanesFit (ls : List Int) : Bool := ls.all fun v => decide (-32768 ≤ v) && decide (v ≤ 32767)

/-- What a rescale gives: the block, its rescale steps as old and new exponent, and whether X passed 0xFF. -/
structure Rescaled where
  g : GBlock
  steps : List (Nat × Nat)
  ovf : Bool
  deriving DecidableEq, Repr

/-- Rescale steps until every lane fits (R395, R396). A 20-bit lane fits after five at most. -/
def rescaleN : Nat → HopSum → List (Nat × Nat) → Rescaled
  | 0, h, steps => { g := gNan h.flags, steps := steps, ovf := false }
  | fuel + 1, h, steps =>
    if lanesFit h.lanes then
      { g := { x := h.x, flags := h.flags, res := dgResidue h.lanes, m := h.lanes }, steps := steps, ovf := false }
    else if 0xFF ≤ h.x then { g := gNan h.flags, steps := steps, ovf := true }
    else
      rescaleN fuel { h with lanes := h.lanes.map fun v => rneShift v 1, x := h.x + 1, flags := h.flags ||| gResc }
        (steps ++ [(h.x, h.x + 1)])

/-- The output block of a hop. -/
def gFinish (h : HopSum) : Rescaled :=
  if h.nan then { g := gNan h.flags, steps := [], ovf := false } else rescaleN 16 h []

/-! ### Thinning -/

/-- Votes: magnitude D as DF16, and 64 counts with their residue (R60, R61). -/
structure Votes where
  d : Nat
  v : List Int
  res : Nat
  deriving DecidableEq, Repr

/-- The NaN magnitude of R402. -/
def dNan : Nat := 0x7F00

/-- A DS1 block: its counts are votes (R60, R403). -/
def ds1Read (bs : Bytes) : Votes :=
  let h := leVal (sliceB bs 0 4)
  let w := leVal (sliceB bs 4 8)
  { d := fld h 31 16, res := fld h 15 0, v := (List.range 64).map fun i => if bitOf w i then -1 else 1 }

/-- The 12 bytes of a DS1 block. -/
def ds1Bytes (x : Votes) : Bytes :=
  let w := ((x.v.zip (List.range 64)).map fun p => putBit (decide (p.1 < 0)) p.2).sum
  leBytes 4 (putFld x.d 16 16 + putFld x.res 16 0) ++ leBytes 8 w

/-- A DV8 block and its 68 bytes (R61). -/
def dv8Read (bs : Bytes) : Votes :=
  let h := leVal (sliceB bs 0 4)
  { d := fld h 31 16, res := fld h 15 0, v := (List.range 64).map (laneOf bs 4 1) }
def dv8Bytes (x : Votes) : Bytes :=
  leBytes 4 (putFld x.d 16 16 + putFld x.res 16 0) ++ x.v.flatMap fun c => leBytes 1 (ofInt 8 c)

/-- The arrival check of votes (R393). -/
def votesOk (x : Votes) : Bool := x.res == dgResidue x.v

/-- binary32 division by a count (R219, R403). -/
def fDivNat (a n : Nat) : Nat :=
  match f32Dec a with
  | .nan => f32Nan
  | .inf s => f32Inf s
  | .fin s m e =>
    if m = 0 then a
    else
      let q := (m <<< 64) / n
      (f32Round s (2 * q + (if (m <<< 64) % n = 0 then 0 else 1)) (e - 65)).1

/-- DF16 of a binary32 under RNE, ∞ replaced by the largest finite value (R402, R403). -/
def dMag (a : Nat) : Nat :=
  let r := (df16Enc .rne 0 (f32Dec a)).1
  if r = 0x7E00 then 0x7DFF else r

/-- A contribution thinned: its votes and its new error memory (R402). -/
def thinBlock (g : GBlock) (err : List Nat) : Votes × List Nat :=
  let h := putFld g.x 8 24
  let gs := (List.range 64).map fun i =>
    fAdd (f32Enc (dgDec h (ofInt 16 (g.m.getD i 0)))).1 (err.getD i 0)
  let v := gs.map fun a => if bitOf a 31 && !isNan a && fld a 30 0 ≠ 0 then (-1 : Int) else 1
  let bad := gNanSeen ≤ g.flags || gs.any isNan
  let sum := gs.foldl (fun acc a => fAdd acc (a % 2 ^ 31)) 0
  let d := if bad then dNan else dMag (fMul sum 0x3C800000)
  let d32 := (f32Enc (df16Dec d)).1
  let err' := (gs.zip v).map fun p => fAdd p.1 (if p.2 < 0 then d32 else d32 ^^^ 2 ^ 31)
  ({ d := d, v := v, res := dgResidue v }, if bad then err else err')

/-- Votes merged: those of an incoming partial with its COUNT and this module's, and whether a count saturated
(R403). With no contribution anywhere the magnitude stays 0. The residue is the sum of the input residues, as R403 gives
it; once a count has saturated that is no longer the residue over the counts that R61 names (DESIGN CHOICE, log entry
101). -/
def mergeVotes (p : Option (Votes × Nat)) (own : List Votes) : Votes × Bool :=
  let (v0, r0, d0, k) := match p with
    | some (x, k) => (x.v, x.res, x.d, k)
    | none => (zeroLanes, 0, 0, 0)
  let n := k + own.length
  let to32 (d : Nat) : Nat := (f32Enc (df16Dec d)).1
  let sums := own.foldl (fun acc x => List.zipWith (· + ·) acc x.v) v0
  let total := own.foldl (fun acc x => fAdd acc (to32 x.d)) (fMul (f32OfInt k 0) (to32 d0))
  let nan := (df16Dec d0 == .nan) || own.any fun x => df16Dec x.d == .nan
  let d := if nan then dNan else if n = 0 then d0 else dMag (fDivNat total n)
  let sat := sums.any fun c => decide (c < -128) || decide (127 < c)
  ({ d := d, v := sums.map fun c => max (-128) (min 127 c), res := own.foldl (fun r x => (r + x.res) % dgPrime) r0 }, sat)

/-- The final votes of the entry stage as a sum to be rescaled (R404). -/
def votesSum (x : Votes) (rip : Bool) : HopSum :=
  let flags := gThin ||| (if rip then gRip else 0)
  let e := fld x.d 14 9
  let f := fld x.d 8 0
  let nan := e == 63
  let sig := if e = 0 then f else 512 + f
  { lanes := if nan then zeroLanes else x.v.map fun c => c * sig
    x := if nan then 0 else max e 1 + 101
    flags := flags
    nan := nan }

end Sys2Proof.Machine
end

