-- ==== Sys2Proof/Machine/Links.lean ====
section
/-! DEFINITION. Ruong ports: receipt, acknowledgement, credits and resends of flits (R342 to R345),
failover (R351), transit (R355, R356), training (R367 to R370, R378), injection and the change of route
tables (R359, R360, R363, R364), and the reads that clear Ruong counters (R374, R379). -/

namespace Sys2Proof.Machine

/-- A port changed. -/
def modPort (s : State) (p : Nat) (f : Port → Port) : State := setPort s p (f (portOf s p))

/-- The Ruong common part changed. -/
def modFab (s : State) (f : Fabric → Fabric) : State := { s with fab := f s.fab }

/-- Fields of RUONG_PERR raised: 48 UNCORR, 32 CRC_ERR, 16 RETRY, 0 LINK_FAULT (R379). -/
def countPerr (s : State) (p lo n : Nat) : State := modPort s p fun q => { q with perr := bump16 q.perr lo n }

/-- RUONG_DROP.HOLD and STALE raised (R374). -/
def countHold (s : State) : State := modFab s fun f => { f with drop := bumpFld f.drop 32 32 1 }
def countStale (s : State) : State := modFab s fun f => { f with drop := bumpFld f.drop 16 16 1 }

/-- An event of a port for fault triage; DETAIL0 is the port (R549, R557). -/
def portEvent (s : State) (cls p : Nat) : State :=
  attn s { cls := cls, source := 0x10 + p, tier := .fabric, unit := p, d0 := BitVec.ofNat 64 p }

/-- Dimension of a port and whether its direction is - (R333). -/
def portDim (p : Nat) : Nat := p / 4
def portNeg (p : Nat) : Bool := p / 2 % 2 == 1

/-- The other port of the pair, and the port that R335 joins to port p of a neighbour. -/
def pairPort (p : Nat) : Nat := if p % 2 = 0 then p + 1 else p - 1
def joinedPort (p : Nat) : Nat := if p % 4 < 2 then p + 2 else p - 2

/-! ### Leaving ACTIVE (R351, R370) -/

/-- A waiting flit of a dead direction discarded: UNREACHABLE (R351). -/
def dropFlits (s : State) (fs : List TxFlit) : State := fs.foldl (fun s t => unreachable s t.pkt) s

/-- A port leaves ACTIVE for another state. Its unacknowledged flits go to the other port of the pair as
FAILOVER flits ahead of every other one, and its waiting flits after them; with `hold` its retry buffer is
discarded instead (R351, R370). A direction without an ACTIVE port is dead. -/
def leaveActive (s : State) (p st : Nat) (hold : Bool) : State :=
  let q := portOf s p
  let o := pairPort p
  let moved := if hold then [] else q.retry.map fun t => { t with orig := some (p, t.seq), resends := 0 }
  let waiting := q.txq
  let s := setPort s p
    { q with state := st, since := now s, warmHold := hold, retry := [], txq := [], diverted := true }
  if portActive s o then
    pump (modPort s o fun x => { x with txq := moved ++ x.txq ++ waiting, diverted := false }) o
  else
    let s := dropFlits s (moved ++ waiting)
    if hold then s else portEvent s 0x0A p

/-- A link fault: the port leaves ACTIVE and retrains from EQUALIZE (R344). -/
def linkFault (s : State) (p : Nat) : State :=
  leaveActive (portEvent (countPerr s p 0 1) 0x09 p) p 2 false

/-- Whether the module drives its connectors: not before the power-good handshake, nor in a hold (R26, R591, R604). -/
def driving (s : State) : Bool := railsUp s && s.start.mode == .normal

/-- A port put into a training state. -/
def trainFrom (q : Port) (st t : Nat) : Port := { q with state := st, since := t }

/-- Training from EQUALIZE, or from DETECT where the port has stopped (R378, R541). -/
def startRetrain (s : State) (p : Nat) : State :=
  let s := if portActive s p then leaveActive s p 2 false else s
  modPort s p fun q =>
    { trainFrom q (if q.state = 0 ∨ q.state = 7 then 1 else 2) (now s) with retrain := false, tries := 0, warmHold := false }

/-- RETRAIN set: the port retrains; a disabled one, or one that the module does not drive yet, keeps the
request (R26, R378). -/
def askRetrain (s : State) (p : Nat) : State :=
  if (portOf s p).en && driving s then startRetrain s p else modPort s p fun q => { q with retrain := true }

/-! ### Resends (R343, R344) -/

/-- One flit of the retry buffer sent again with the SEQ it bears. -/
def resendFlit (s : State) (p : Nat) (t : TxFlit) : State :=
  let q := portOf s p
  emit (setPort s p (portSent q)) (.flit p (flitB (linkWord q t.seq (if t.orig.isSome then 2 else 1) t.vc t.orig) t.pkt))

/-- The retry buffer sent again from its oldest flit; a flit's ninth time is a link fault (R343, R344). At the threshold
of RETRY the port retrains (R554). -/
def resendAll (s : State) (p : Nat) : State :=
  let q := portOf s p
  if q.retry.isEmpty then s
  else if q.retry.any fun t => decide (8 ≤ t.resends) then linkFault s p
  else
    let s := countPerr s p 16 q.retry.length
    let s := modPort s p fun q => { q with retry := q.retry.map fun t => { t with resends := t.resends + 1 } }
    let s := q.retry.foldl (fun s t => resendFlit s p t) s
    let r := tally s (countKey 4 p) q.retry.length 65536
    if r.2 then askRetrain (addRecord r.1 9 (0x10 + p) 4 (BitVec.ofNat 64 p) 65536 0) p else r.1

/-! ### Receipt (R338, R343, R345) -/

/-- The acknowledgement and credits that a link word carries (R342, R345). -/
def takeLink (q : Port) (link : Nat) : Port :=
  let ack := fld link 63 52
  let left := if bitOf link 51 then q.retry.filter fun t => !decide (subMod 12 ack t.seq < 2048) else q.retry
  let vc := fld link 28 24
  { q with
    retry := left
    spent := mset q.spent 0 vc (mget q.spent 0 vc - fld link 23 18) }

/-- A discarded flit: the first discard sets NAK (R343). -/
def discardFlit (s : State) (p : Nat) : State :=
  let q := portOf s p
  if q.disc || q.state ≠ 5 then s else sendIdle (setPort s p { q with disc := true, nak := true }) p

/-- A buffer of a virtual channel freed: its credit goes back (R345). Port 12 stands for this module's
messages to itself, which take no credit; on a port that is not ACTIVE, IDENTIFY will reset the credits (R368). -/
def freeBuffer (s : State) (p vc : Nat) : State :=
  if 12 ≤ p || !portActive s p then s
  else sendIdle (modPort s p fun q => { q with owed := mset q.owed 0 vc (mget q.owed 0 vc + 1) }) p

/-- An accepted packet: into its ingress buffer, or discarded when it has crossed 63 links (R345, R356). -/
def acceptPacket (s : State) (p vc : Nat) (k : Packet) : State :=
  if k.hops = 63 && physNode s k.dst != ownNode s then freeBuffer (countHold s) p vc
  else sendIdle (modPort s p fun q => { q with ingress := q.ingress ++ [{ pkt := k, vc := vc, tick := now s }] }) p

/-! ### Forward error correction (R334)

A codeword of a lane is 560 symbols of 10 bits, 500 of them payload: RS(560,500). -/

/-- Bits of a codeword, payload bits of a codeword, and symbol errors that it corrects. -/
def fecBits : Nat := 10 * 560
def fecPayload : Nat := 10 * 500
def fecLimit : Nat := (560 - 500) / 2

/-- The lane of byte i of the payload stream: all 16 lanes in turn, or the 8 of the trained half (R334, R369, R377). -/
def byteLane (q : Port) (i : Nat) : Nat :=
  if q.width = 3 then i % 16 else if q.width = 2 then 8 + i % 8 else i % 8

/-- Whether a lane carries payload of a port: byte i of a flit, which begins at a multiple of 256 in the stream, travels
on it for some i. -/
def laneUsed (q : Port) (lane : Nat) : Bool := (List.range 16).any fun i => byteLane q i == lane

/-- The codewords of a flit: those of the lanes in use. -/
def flitWords (q : Port) (f : RawFlit) : List CodeWord := f.words.filter fun w => laneUsed q w.lane

/-- Whether FEC can correct a codeword (R334). -/
def fecOk (w : CodeWord) : Bool := decide (w.errs ≤ fecLimit)

/-- What FEC found on the codewords of a flit, each counted with the first flit that touches it (R334, R379). -/
def fecCounts (s : State) (p : Nat) (f : RawFlit) : State :=
  let ws := (flitWords (portOf s p) f).filter fun w => w.first && decide (0 < w.errs)
  let good := (ws.filter fecOk).length
  let bad := (ws.filter fun w => !fecOk w).length
  let s := if good = 0 then s else modPort s p fun q => { q with pcorr := bumpFld q.pcorr 0 64 good }
  if bad = 0 then s else countPerr s p 48 bad

/-- Whether a flit is intact: FEC could correct every codeword that it touches, and its CRC is good (R341, R343). -/
def flitOk (q : Port) (f : RawFlit) : Bool :=
  (flitWords q f).all fecOk && leVal (sliceB f.bytes 252 4) == crc32c (sliceB f.bytes 0 252)

/-- Fields of the link word of a flit. -/
def flitLink (f : RawFlit) : Nat := wordAt f.bytes 0
def flitKind (f : RawFlit) : Nat := fld (flitLink f) 37 34
def flitVc (f : RawFlit) : Nat := fld (flitLink f) 33 29
def flitSeq (f : RawFlit) : Nat := fld (flitLink f) 49 38

/-- Whether the ORIG_PORT of a FAILOVER flit on port p names a port that R335 joins to its pair (R351). -/
def origOk (p o : Nat) : Bool := decide (o < 12) && decide (joinedPort o / 2 = p / 2)

/-- A flit that has failed its CRC, or is treated so (R338, R343, R351). -/
def badFlit (s : State) (p : Nat) : State := discardFlit (countPerr s p 32 1) p

/-- An intact numbered flit with its SEQ expected: ACK_SEQ moves on (R342, R343). -/
def takeSeq (s : State) (p : Nat) (f : RawFlit) : State :=
  modPort s p fun q => { q with rxSeq := (flitSeq f + 1) % 4096, disc := false, last := flitSeq f }

/-- A FAILOVER flit accepted, or dropped as a duplicate, by the window of R351. -/
def takeFailover (s : State) (p : Nat) (f : RawFlit) : State :=
  let inc := joinedPort (fld (flitLink f) 5 2)
  let seq := fld (flitLink f) 17 6
  let s := takeSeq s p f
  if subMod 12 seq ((portOf s inc).last + 1) < 1024 then
    acceptPacket (modPort s inc fun q => { q with last := seq }) p (flitVc f) (packetOf f.bytes)
  else freeBuffer s p (flitVc f)

/-- What this module's TRAIN flits on a port carry (R367). -/
def trainId (s : State) (p : Nat) : TrainId :=
  let n := ownNode s
  { node := n, x := coordOf n 0, y := coordOf n 1, z := coordOf n 2, port := p, job := ownJob s, epoch := s.fab.epoch.toNat,
    mode := dutyMode s 3 }

/-- A port in IDENTIFY sends its TRAIN flit (R367, R368). -/
def identify (s : State) (p : Nat) : State := emit s (.train p (trainId s p))

/-- A TRAIN flit: on an ACTIVE port it announces a warm hold (R368, R370). -/
def takeTrain (s : State) (p : Nat) : State := if portActive s p then identify (leaveActive s p 4 true) p else s

/-- Whether the 32 buffers of a virtual channel are taken (R345). A sender that keeps to its credits never sends a flit
then; one that comes all the same is discarded as R343 discards a flit (DESIGN CHOICE, log entry 106). -/
def vcFull (s : State) (p vc : Nat) : Bool :=
  decide (32 ≤ ((portOf s p).ingress.filter fun i => i.vc == vc).length)

/-- A flit as a port takes it (R343). -/
def takeFlit (s : State) (p : Nat) (f : RawFlit) : State :=
  let s := fecCounts s p f
  let kind := flitKind f
  if !flitOk (portOf s p) f || 3 < kind || (kind == 2 && !origOk p (fld (flitLink f) 5 2)) then badFlit s p
  else if kind = 3 then takeTrain s p
  else if !portActive s p then s
  else
    let s := modPort s p fun q => takeLink q (flitLink f)
    let s := if bitOf (flitLink f) 50 then resendAll s p else s
    let s := pump s p
    if kind = 0 || !portActive s p then s
    else if flitSeq f ≠ (portOf s p).rxSeq || vcFull s p (flitVc f) then discardFlit s p
    else if kind = 2 then takeFailover s p f
    else acceptPacket (takeSeq s p f) p (flitVc f) (packetOf f.bytes)

/-- Whether a port receives flits: it is in IDENTIFY or in service (R367). -/
def receives (s : State) (p : Nat) : Bool := (portOf s p).state == 4 || (portOf s p).state == 5

/-- FLIT_RECEIVE (R343). -/
def execFlitReceive (p : Nat) (f : RawFlit) (s : State) : Res :=
  onUnit 12 p (.next (if receives s p then takeFlit s p f else s))

/-- FAILOVER_FLIT (R351): a flit of KIND FAILOVER. -/
def execFailoverFlit (p : Nat) (f : RawFlit) (s : State) : Res :=
  onUnit 12 p (.next (if receives s p && flitKind f == 2 then takeFlit s p f else s))

/-- TRAIN_FLIT (R368, R370): a flit of KIND TRAIN. -/
def execTrainFlit (p : Nat) (f : RawFlit) (s : State) : Res :=
  onUnit 12 p (.next (if receives s p && flitKind f == 3 then takeFlit s p f else s))

/-- LINK_RETRY_TIMEOUT (R343). -/
def execLinkRetryTimeout (p : Nat) (s : State) : Res :=
  onUnit 12 p (.next (if portActive s p then resendAll s p else s))

/-! ### Ingress buffers -/

/-- The oldest flit of a virtual channel of a port. -/
def vcHead (s : State) (p vc : Nat) : Option Ingress := (portOf s p).ingress.find? fun i => i.vc == vc

/-- A flit taken out of its ingress buffer, its credit given back. -/
def takeIngress (s : State) (p : Nat) (i : Ingress) : State :=
  freeBuffer (modPort s p fun q => { q with ingress := q.ingress.erase i }) p i.vc

/-- The packet of the oldest flit of a virtual channel replaced by what is left of it. -/
def putHead (s : State) (p vc : Nat) (k : Packet) : State :=
  match vcHead s p vc with
  | none => s
  | some i => modPort s p fun q => { q with ingress := lset q.ingress (q.ingress.idxOf i) { i with pkt := k } }

/-- The oldest flit of a virtual channel taken out of its buffer. -/
def takeHead (s : State) (p vc : Nat) : State :=
  match vcHead s p vc with
  | none => s
  | some i => takeIngress s p i

/-- Whether a packet is for another module (R352, R362). -/
def isTransit (s : State) (k : Packet) : Bool := physNode s k.dst != ownNode s

/-- TRANSIT_FORWARD (R352, R355, R357): with `dbl`, the buffered flit shows a double-bit error, which
discards it (R553). A packet whose egress port has no credit for it stays in its ingress buffer (R345, R356). -/
def execTransitForward (p vc : Nat) (dbl : Bool) (s : State) : Res := onHub s <|
  onUnit 12 p (.next (
    match vcHead s p vc with
    | none => s
    | some i =>
      if dbl then portEvent (takeHead s p vc) 0x0B p
      else if !isTransit s i.pkt then s
      else
        let phys := physNode s i.pkt.dst
        let came := some (portDim p, bitOf vc 0)
        if !inTorus s phys || nodeDead s phys then unreachable (takeHead s p vc) i.pkt
        else match wayOut s i.pkt came with
          | some (t, some o) => if canLeave s o t.vc then egress (takeHead s p vc) i.pkt came else s
          | _ => egress (takeHead s p vc) i.pkt came))

/-- The oldest flit of a virtual channel that is for another module, whatever stands before it in the buffer. -/
def oldestTransit (s : State) (p vc : Nat) : Option Ingress :=
  (portOf s p).ingress.find? fun i => i.vc == vc && isTransit s i.pkt

/-- TRANSIT_HOLD_EXPIRY (R356). -/
def execTransitHoldExpiry (p vc : Nat) (s : State) : Res := onHub s <|
  onUnit 12 p (.next (
    match oldestTransit s p vc with
    | none => s
    | some i =>
      if s.fab.tmo.toNat / 64 < subMod 64 (now s) i.tick then countHold (takeIngress s p i) else s))

/-! ### Injection (R359, R360, R363) -/

/-- Whether a packet may be injected now: control packets always, packets of the other classes, their responses among
them, not during the drain or while a route cache is awaited (R363, R364). -/
def mayInject (s : State) (k : Packet) : Bool := k.tc == 2 || (s.fab.drain.isNone && !s.fab.cacheWait)

/-- PACKET_INJECT (R359, R360): the oldest packet that may be injected. -/
def execPacketInject (s : State) : Res := onHub s <|
  .next (
    match s.fab.inj.find? (mayInject s) with
    | none => s
    | some k =>
      let s := modFab s fun f => { f with inj := f.inj.erase k }
      match routeOf s k.dst with
      | none => unreachable s k
      | some d => egress s { k with dtr0 := d.1, dtr1 := d.2 } none)

/-! ### Epoch changes (R363, R364) -/

/-- Whether every request that has been sent is complete or has failed. -/
def drained (s : State) : Bool :=
  s.fab.tags.all fun kv =>
    kv.2.quar.isSome || s.fab.inj.any fun k => (k.opc == 1 || k.opc == 2 || k.opc == 4) && k.tag == kv.1

/-- ROUTE_DRAIN (R363): an ordered epoch change stops injection. -/
def execRouteDrain (s : State) : Res := onHub s <|
  .next (match s.fab.change with
    | some t => modFab s fun f => { f with change := none, drain := some t }
    | none => s)

/-- The tables of an epoch change come into force, flows go back to their own ports (R351), and a route cache
is awaited outside hardware mode (R363, R364). The ring registers of a join record come with them, and the
hoop engine is enabled (R387, R417, R486). -/
def loadTables (s : State) (t : EpochChange) : State :=
  let s := modFab s fun f =>
    { f with fmap := t.fmap, aliases := t.aliases, epoch := t.epoch, drain := none, rcache := [], cacheWait := dutyMode s 3 != 0 }
  let s := { s with ports := s.ports.map fun kv => (kv.1, { kv.2 with diverted := kv.2.diverted && kv.2.state != 5 }) }
  let s := modObj s fun o => { o with contend := mput o.contend 3 (now s) }
  match t.ring with
  | none => s
  | some (g, n, p) =>
    let hoop := { s.hoop with grid := g, next := n, prev := p, ctl := s.hoop.ctl ||| BitVec.ofNat 32 (2 ^ 31) }
    { s with hoop := hoop }

/-- The cache entry that R359 gives for a destination; 0 for plain dimension order. -/
def routeEntry (s : State) (n : Nat) : Word :=
  match detours s n 128 (ownNode s) [] with
  | some ws => BitVec.ofNat 32 (putFld (ws.getD 0 0) 16 16 + putFld (ws.getD 1 0) 16 0)
  | none => 0

/-- The route cache that the rind computes (R364). -/
def routeCache (s : State) : Map Word :=
  (List.range 16384).foldl (fun m n => if inTorus s n then mset m 0 n (routeEntry s n) else m) []

/-- The entry for destination n of the route cache that the client has posted: its memory object holds an image of
RUONG_RCACHE (R364, R375; DESIGN CHOICE, log entry 107). What lies beyond the object is absent, 0. -/
def clientEntry (s : State) (n : Nat) : Word :=
  match s.obj.posts.find? fun p => p.fn == 3 with
  | none => 0
  | some p =>
    match mem? s p.obj with
    | none => 0
    | some m => if p.off + 4 * n + 4 ≤ m.len * 65536 then BitVec.ofNat 32 (hubNum s (m.base + p.off + 4 * n) 4) else 0

/-- Whether every entry of the client's cache is the one of R359. -/
def clientRight (s : State) : Bool := (List.range 16384).all fun n => !inTorus s n || clientEntry s n == routeEntry s n

/-- Whose route cache a module waits for (R364). -/
def cacheSource (s : State) : CacheSource := if dutyMode s 3 = 2 then .client else .rind

/-- ROUTE_CACHE_READY (R364): the rind's cache, or the client's once its fence is signalled, each entry checked against
R359; the rind computes one that differs and sets FB_DETOUR. What comes into force is therefore the same cache (R36). -/
def execRouteCacheReady (src : CacheSource) (s : State) : Res := onRind s <|
  .next (
    if !s.fab.cacheWait || src ≠ cacheSource s then s
    else match src with
    | .client =>
      if controllerGone s || !postDone s 3 then s
      else
        let s := if clientRight s then s else setFallback s 3
        let s := modFab s fun f => { f with rcache := routeCache s, cacheWait := false }
        modObj s fun o => { o with contend := mdel o.contend 3, posts := o.posts.filter fun p => p.fn ≠ 3 }
    | .rind => modFab s fun f => { f with rcache := routeCache s, cacheWait := false })

/-! ### Training (R367 to R370, R378) -/

/-- Limit of a training state in reference ticks (R367). -/
def trainLimit (q : Port) : Nat :=
  match q.state with
  | 1 => 1000000
  | 2 => 50000000
  | 3 => 1000000
  | _ => if q.warmHold then 1000000000 else 100000

/-- Lanes that EQUALIZE has found good, as WIDTH; 0 when the port cannot go on (R369). -/
def trainWidth (halfOk : Bool) (t : TrainInfo) : Nat :=
  if t.lowOk && t.highOk then 3 else if halfOk && t.lowOk then 1 else if halfOk && t.highOk then 2 else 0

/-- Whether IDENTIFY finds the neighbour of R335 and R336 and its detour mode (R368). -/
def nbrOk (s : State) (p : Nat) (t : TrainInfo) : Bool :=
  let n := stepNode s (ownNode s) (portDim p) (portNeg p)
  t.nbr.x == coordOf n 0 && t.nbr.y == coordOf n 1 && t.nbr.z == coordOf n 2 &&
    t.nbr.port == joinedPort p && t.nbr.mode == dutyMode s 3

/-- A port at the end of IDENTIFY: SEQ, ACK_SEQ and credits reset, retry buffers discarded (R345, R368). Its flows stay
on the other port of its pair while that one is ACTIVE, `other` (R351). -/
def identified (q : Port) (t : TrainInfo) (now_ : Nat) (other : Bool) : Port :=
  { q with
    state := 5
    since := now_
    nbrNode := BitVec.ofNat 16 t.nbr.node
    nbrPort := BitVec.ofNat 4 t.nbr.port
    diverted := q.diverted && other
    attempts := 0
    tries := 0
    warmHold := false
    txSeq := 0
    rxSeq := 0
    last := 4095
    nak := false
    disc := false
    retry := []
    spent := []
    owed := [] }

/-- LINK_TRAIN_STATE_DONE (R367 to R369); nothing trains before the power-good handshake (R26). -/
def execLinkTrainStateDone (p : Nat) (t : TrainInfo) (s : State) : Res :=
  onUnit 12 p (.next (
    let q := portOf s p
    if !q.en || !driving s then s
    else match q.state with
      | 1 => setPort s p (trainFrom q 2 (now s))
      | 2 =>
        let w := trainWidth q.halfOk t
        if w = 0 then s else setPort s p { trainFrom q 3 (now s) with width := BitVec.ofNat 2 w }
      | 3 => identify (setPort s p { trainFrom q 4 (now s) with reversed := t.reversed, polinv := t.polinv }) p
      | 4 =>
        if nbrOk s p t then pump (setPort s p (identified q t (now s) (portActive s (pairPort p)))) p
        else
          portEvent (setPort s p { trainFrom q 6 (now s) with
            nbrNode := BitVec.ofNat 16 t.nbr.node, nbrPort := BitVec.ofNat 4 t.nbr.port, warmHold := false }) 0x0A p
      | _ => s))

/-- TRAIN_LIMIT_EXPIRY (R367, R370). -/
def execTrainLimitExpiry (p : Nat) (s : State) : Res :=
  onUnit 12 p (.next (
    let q := portOf s p
    if q.state = 0 || 4 < q.state || subMod 64 (now s) q.since ≤ trainLimit q then s
    else
      let q' := { q with
        state := if 2 ≤ q.tries then 7 else 1
        since := now s
        tries := q.tries + 1
        attempts := BitVec.ofNat 8 (satAdd 8 q.attempts.toNat 1)
        warmHold := false }
      let s := setPort s p q'
      let s := if q.warmHold then portEvent (countPerr s p 0 1) 0x09 p else s
      if q'.state = 7 then portEvent s 0x0A p else s))

/-- RETRAIN (R378, R541): the bit is set, and an enabled port starts to train. -/
def execRetrain (p : Nat) (s : State) : Res :=
  onUnit 12 p (.next (askRetrain s p))

/-- A write of RUONG_PCTL: EN starts or ends the training and traffic of the port (R378). -/
def writePctl (s : State) (p v : Nat) : State :=
  let q := portOf s p
  let en := bitOf v 31
  let s := modPort s p fun q => { q with en := en, halfOk := bitOf v 29, retrain := q.retrain || bitOf v 30 }
  if q.en && !en then
    let s := if portActive s p then leaveActive s p 0 false else s
    modPort s p fun q => trainFrom q 0 (now s)
  else if !driving s then s
  else if !q.en && en then modPort s p fun q => { trainFrom q 1 (now s) with tries := 0, retrain := false }
  else if en && bitOf v 30 then startRetrain s p
  else s

/-! ### Counters that a read clears -/

/-- The value of a 64-bit register returned by a read. -/
def readReg (s : State) (v : Dword) : State := emit s (.reg v)

/-- READ_RUONG_DROP (R374). -/
def execReadRuongDrop (s : State) : Res := .next (readReg (modFab s fun f => { f with drop := 0 }) s.fab.drop)

/-- READ_RUONG_PERR (R379). -/
def execReadRuongPerr (p : Nat) (s : State) : Res :=
  onUnit 12 p (.next (readReg (modPort s p fun q => { q with perr := 0 }) (portOf s p).perr))

/-- READ_RUONG_PCORR (R379). -/
def execReadRuongPcorr (p : Nat) (s : State) : Res :=
  onUnit 12 p (.next (readReg (modPort s p fun q => { q with pcorr := 0 }) (portOf s p).pcorr))

end Sys2Proof.Machine
end

