-- ==== Sys2Proof/Machine/MemCtl.lean ====
section
/-! DEFINITION. Memory controllers: parking and waking of cave channels (R283), and
patrol scrub (R297). -/

namespace Sys2Proof.Machine

/-- CAVE_PARK (R283): a trained channel with no request waiting. -/
def execCavePark (ch : Nat) (s : State) : Res :=
  onUnit 16 ch (.next (
    let m := s.memCtl
    if m.parkEn && bitOf s.start.caveUp.toNat ch && !bitOf m.wakes.toNat ch then
      { s with memCtl := { m with parked := m.parked ||| BitVec.ofNat 16 (2 ^ ch) } }
    else s))

/-- A channel that was asked to wake is back (R283). -/
def wakeChan (s : State) (ch : Nat) : State :=
  let m := s.memCtl
  if bitOf m.wakes.toNat ch then
    let bit := BitVec.ofNat 16 (2 ^ ch)
    flushHeld { s with memCtl := { m with parked := m.parked &&& ~~~bit, wakes := m.wakes &&& ~~~bit } }
  else s

/-- CAVE_WAKE (R283). -/
def execCaveWake (ch : Nat) (s : State) : Res := onUnit 16 ch (.next (wakeChan s ch))

/-- First address of the unit of poison that holds an address (R296). -/
def unitBase (a : Nat) : Nat := a - a % unitSize a

/-- PATROL_SCRUB (R297): a corrected word is counted, an uncorrectable one is logged and stays for a later read
to meet. -/
def execPatrolScrub (addr : Nat) (r : ScrubResult) (s : State) : Res := onHub s <|
  .next (
    let tier := match regionOf addr with | .hbm => true | .cave => true | _ => false
    if !s.memCtl.scrubEn || !tier || !inService s addr then s
    else
      let t := tierOf s addr
      let ev (cls : Nat) : FaultInfo := { cls := cls, source := t.2.2, tier := t.1, unit := t.2.1, d0 := BitVec.ofNat 64 addr }
      match r with
      | .clean => s
      | .corrected => attn s (ev 1)
      | .uncorrectable => attn { s with bad := kput s.bad (unitBase addr) } (ev 2))

end Sys2Proof.Machine
end

