-- ==== Sys2Proof/Machine/QwTable.lean ====
section
/-! DEFINITION. The quantised tensor table: records and banks (R253 to R255). -/

namespace Sys2Proof.Machine

/-- A quantised tensor record as read (R254). -/
structure QwRec where
  k : Nat
  n : Nat
  ver : Nat
  rerun : Nat
  smooth : Bool
  rot : Nat
  c8 : Bool
  src : Nat
  actMax : Nat
  bank0 : Nat
  bank1 : Nat
  errLimit : Nat
  active : Bool
  hold0 : Nat
  hold1 : Nat
  deferRun : Nat
  deferMax : Nat
  deriving DecidableEq, Repr

/-- Address of record r. -/
def qwAddr (s : State) (r : Nat) : Nat := s.qw.tblBase.toNat + 64 * r

/-- Record r of the table, as the hub sees it with writes of its own that are held. -/
def qwRec (s : State) (r : Nat) : QwRec :=
  let w (i : Nat) : Nat := hubNum s (qwAddr s r + i) 8
  { k := 128 * (fld (w 0) 28 16 + 1), n := fld (w 0) 51 32 + 1, ver := fld (w 0) 7 0, rerun := fld (w 0) 13 12
    smooth := bitOf (w 0) 11, rot := fld (w 0) 10 9, c8 := bitOf (w 0) 8, src := fld (w 8) 47 0
    actMax := fld (w 0x10) 47 0, bank0 := fld (w 0x18) 47 0, bank1 := fld (w 0x20) 47 0
    errLimit := fld (w 0x28) 63 32, active := bitOf (w 0x30) 63, hold0 := fld (w 0x30) 29 0
    hold1 := fld (w 0x30) 61 32, deferRun := fld (w 0x38) 23 16, deferMax := fld (w 0x38) 15 8 }

/-- Sizes of the five regions of a bank, in order (R255). -/
def QwRec.sizes (r : QwRec) : List Nat :=
  [if r.c8 then r.k * r.n else r.k * r.n / 2, r.k * r.n / 32, if r.c8 then 2 * r.k else r.k / 8, r.k, 2 * r.k * r.n]

/-- Address of region i of a bank: each begins at the first 4 KiB boundary from the end of the one before (R255). -/
def QwRec.region (r : QwRec) (bank : Nat) : Nat → Nat
  | 0 => bank
  | i + 1 => ceilDiv (r.region bank i + r.sizes.getD i 0) 4096 * 4096

/-- The bank that is not active. -/
def QwRec.spare (r : QwRec) : Nat := if r.active then r.bank0 else r.bank1
def QwRec.holds (r : QwRec) : Nat := if r.active then r.hold0 else r.hold1

/-- The end of a bank. -/
def QwRec.bankEnd (r : QwRec) (bank : Nat) : Nat := r.region bank 4 + r.sizes.getD 4 0

/-- Whether the record can be regenerated: no reserved encoding, N a multiple of 32, banks on 4 KiB boundaries,
and everything in HBM (R254, R270). -/
def QwRec.shapeOk (r : QwRec) : Bool :=
  let inHbm (a e : Nat) : Bool := decide (a ≤ e) && decide (e ≤ 0x030000000000)
  r.ver == 1 && r.rot != 3 && r.rerun != 3 && r.n % 32 == 0 && r.bank0 % 4096 == 0 && r.bank1 % 4096 == 0 &&
    inHbm r.src (r.src + 4 * r.k * r.n) && inHbm r.actMax (r.actMax + 4 * r.k) && inHbm r.bank0 (r.bankEnd r.bank0) &&
    inHbm r.bank1 (r.bankEnd r.bank1)

/-- The tensors that a regeneration of the table reads, as ranges of SRC (R256). -/
def qwReads (s : State) : List (Nat × Nat) :=
  (((List.range (fld s.qw.tblCnt.toNat 12 0)).map (qwRec s)).filter QwRec.shapeOk).map fun r => (r.src, 4 * r.k * r.n)

/-- Whether a core is ahead in the optimizer phase of a step whose predecessor is to be regenerated and has not reached its
turning point: it writes none of the tensors before the regeneration has read them (R256). -/
def optAhead (s : State) (c : Nat) : Bool :=
  match (coreOf s c).phase.cur with
  | some (t, 5) =>
    bitOf s.qw.ctl.toNat 31 && fullService s && decide (0 < t) && (t - 1) % fld s.qw.ctl.toNat 15 0 == 0 &&
      (match s.turn.lastPoint with | some p => decide (p + 1 < t) | none => true)
  | _ => false

/-- Whether a write of a core waits for a regeneration that is still to come due (R256). -/
def optHeld (s : State) (c a n : Nat) : Bool :=
  optAhead s c && (qwReads s).any fun r => decide (r.1 < a + n) && decide (a < r.1 + r.2)

end Sys2Proof.Machine
end

