-- ==== Sys2Proof/Machine/Switch.lean ====
section
/-! DEFINITION. Context switches and preemption (R101, R138, R184, R247, R294, R491), the counters charged to
contexts (R472, R497), and the move of regions with their poison (R296, R453). -/

namespace Sys2Proof.Machine

/-! ### Moves -/

/-- Poisoned units of a region as they stand after a move: the units of the destination that the moved bytes
of a poisoned unit meet (R296, R453). -/
def movedBad (bad : List Nat) (src dst len : Nat) : List Nat :=
  ((bad.filter fun u => decide (src ≤ u) && decide (u < src + len)).map fun u =>
    let a := u - src + dst
    a - a % unitSize a).eraseDups

/-- A region moved to another place, poison with it. -/
def moveRegion (s : State) (src dst len : Nat) : State :=
  let moved := movedBad s.bad src dst len
  let s := memCopy s src dst len
  { s with bad := moved.foldl kput s.bad }

/-- Elements of a word memory laid out in memory from an address, 4 bytes each. -/
def putWords (m : Map Byte) (a : Nat) (w : Map Word) (limit : Nat) : Map Byte :=
  w.foldl (fun m kv => putBytes m (a + 4 * kv.1) (leBytes 4 kv.2.toNat)) (clearRange m a (4 * limit))

/-- The elements of a word memory read back from memory; `limit` elements. -/
def getWords (m : Map Byte) (a limit : Nat) : Map Word :=
  (m.filter fun kv => decide (a ≤ kv.1) && decide (kv.1 < a + 4 * limit)).foldl
    (fun w kv =>
      let e := (kv.1 - a) / 4
      mset w 0 e (mget w 0 e + BitVec.ofNat 32 (kv.2.toNat * 256 ^ ((kv.1 - a) % 4)))) []

/-- Elements of accumulator memory and of the operand cache, and of one operand cache slot (R4). -/
def accElems : Nat := 524288
def ocElems : Nat := 262144
def ocSlot : Nat := 4096

/-- The operand cache but for the slots that a mask does not set (R235, R491). -/
def ocKept (m : Map Word) (live : Dword) : Map Word := m.filter fun kv => bitOf live.toNat (kv.1 / ocSlot)

/-! ### The save area (R491) -/

/-- Address of the save slot of core c in the save area of a context. -/
def saveAt (k : Context) (c : Nat) : Nat := k.save + saveSlot * popCount c k.cores.toNat

/-- Where register r of a lane lies in the save slot at an address: the units in their order from 0x1A0_0000, 1 KiB each,
a register's 32 lanes together (R148, R149, R491; the order inside a unit is a DESIGN CHOICE, log entry 124). -/
def regPlace (a : Nat) (g : Group) (lane r : Nat) : Nat := a + 0x1A00000 + 1024 * g.units.getD (r / 8) 0 + 128 * (r % 8) + 4 * lane

/-- The register units of a resident group written into a save slot, with their poison. -/
def saveGroup (s : State) (a : Nat) (g : Group) : State :=
  let units := g.units.map fun u => a + 0x1A00000 + 1024 * u
  let mem := units.foldl (fun m u => clearRange m u 1024) s.mem
  let held := g.regs.filter fun kv => decide (kv.1 % 256 < 8 * g.units.length)
  let mem := held.foldl (fun m kv => putBytes m (regPlace a g (kv.1 / 256) (kv.1 % 256)) (leBytes 4 kv.2.toNat)) mem
  let bad := units.foldl (fun l u => badAfter l u 1024) s.bad
  let at_ (x : Nat) : Nat := x - x % unitSize x
  let bad := g.bad.foldl (fun l u => kput (kput l (at_ (regPlace a g (u / 128) (2 * (u % 128))))) (at_ (regPlace a g (u / 128) (2 * (u % 128) + 1)))) bad
  { s with mem := mem, bad := bad }

/-- The registers of a group read back from its units in a save slot. -/
def loadGroup (s : State) (a : Nat) (g : Group) : Group :=
  let lanes := List.range 32
  let rs := List.range (8 * g.units.length)
  let regs := lanes.foldl
    (fun m l => rs.foldl (fun m r => mset m 0 (256 * l + r) (BitVec.ofNat 32 (rdNum s (regPlace a g l r) 4))) m) []
  let bad := if s.bad.isEmpty then []
    else lanes.flatMap fun l => (rs.filter fun r => isBad s (regPlace a g l r) 4).map fun r => 128 * l + r / 2
  { g with regs := regs, bad := bad.eraseDups }

/-- The group, path, barrier and admission state and the registers of a core in a save slot: the spec gives no layout of
these 512 KiB, so their bytes are free values (R491, log entry 124). -/
def saveState (s : State) (a : Nat) : State :=
  let bs : Bytes := (List.range 0x80000).map fun i => BitVec.ofNat 8 (Config.free (s.freeIx + i))
  { s with mem := putBytes s.mem (a + 0x1B80000) bs, bad := badAfter s.bad (a + 0x1B80000) 0x80000, freeIx := s.freeIx + 0x80000 }

/-- The memories of core c copied into a save slot. -/
def saveMems (s : State) (c a : Nat) : State :=
  let k := coreOf s c
  let s := moveRegion s (spadBase c) a spadSize
  let s := saveState (k.groups.foldl (fun s kv => saveGroup s a kv.2) s) a
  let m := putWords s.mem (a + 0x1800000) k.accMem accElems
  let m := putWords m (a + 0x1A80000) (ocKept k.oc k.whey.ocLive) ocElems
  let at_ (base u : Nat) : Nat := let x := base + 8 * u; x - x % unitSize x
  let bad := badAfter (badAfter s.bad (a + 0x1800000) (4 * accElems)) (a + 0x1A80000) (4 * ocElems)
  let bad := k.accBad.foldl (fun l u => kput l (at_ (a + 0x1800000) u)) bad
  let bad := (k.ocBad.filter fun u => bitOf k.whey.ocLive.toNat (2 * u / ocSlot)).foldl (fun l u => kput l (at_ (a + 0x1A80000) u)) bad
  markDirty { s with mem := m, bad := bad } (granulesOf s a saveSlot)

/-- Poisoned units of a word memory that a save slot holds. -/
def loadBad (s : State) (a limit : Nat) : List Nat :=
  (List.range (limit / 2)).filter fun u => s.bad.any fun b => decide (b < a + 8 * u + 8) && decide (a + 8 * u < b + unitSize b)

/-- The memories and register units of core c loaded from a save slot, the live operand cache slots of the registers
loaded before (R235, R491). -/
def loadMems (s : State) (c a : Nat) : State :=
  let acc := getWords s.mem (a + 0x1800000) accElems
  let oc := ocKept (getWords s.mem (a + 0x1A80000) ocElems) (coreOf s c).whey.ocLive
  let accBad := if s.bad.isEmpty then [] else loadBad s (a + 0x1800000) accElems
  let ocBad := if s.bad.isEmpty then [] else loadBad s (a + 0x1A80000) ocElems
  let s := moveRegion s a (spadBase c) spadSize
  let groups := (coreOf s c).groups.map fun kv => (kv.1, loadGroup s a kv.2)
  modCore s c fun k => { k with accMem := acc, oc := oc, accBad := accBad, ocBad := ocBad, groups := groups }

/-- The per-context registers and group state of a core loaded from what a switch saved; what stays with the
core is kept: logs and RETIRE_PEND, counts, phase, queues of other contexts (R101, R138, R184, R247). Of the operand
cache the live slots come back, and every other one reads +0 (R235). -/
def loadRegs (k o : Core) : Core :=
  let press : Press :=
    { k.press with
      stat := BitVec.ofNat 7 (mergeBits o.press.stat.toNat k.press.stat.toNat 0x40)
      coCtl := o.press.coCtl
      coNext := o.press.coNext
      cc := o.press.cc
      tile := none
      shadow := none
      satOvf := false
      satOther := 0
      sat := []
      stall := o.press.stall }
  let whey : Whey :=
    { k.whey with
      stat := BitVec.ofNat 8 (mergeBits o.whey.stat.toNat k.whey.stat.toNat 0x80)
      log0 := o.whey.log0
      log1 := o.whey.log1
      nanCnt := o.whey.nanCnt
      ocLive := o.whey.ocLive
      seed := o.whey.seed
      ctr := o.whey.ctr
      cc := o.whey.cc
      stall := o.whey.stall
      rseed := o.whey.rseed
      rctr := o.whey.rctr }
  let phase : Phase :=
    { k.phase with
      segBuf := o.phase.segBuf
      segLeft := o.phase.segLeft
      segLast := o.phase.segLast
      segLastId := o.phase.segLastId
      segRefusal := o.phase.segRefusal
      recSeg := o.phase.recSeg
      segEnd := o.phase.segEnd
      recOvf := o.phase.recOvf }
  { k with
    groups := o.groups
    blocks := o.blocks
    admQ := o.admQ ++ k.admQ
    lastSlot := o.lastSlot
    stat := o.stat
    l1 := []
    oc := ocKept o.oc o.whey.ocLive
    ocBad := o.ocBad.filter fun u => bitOf o.whey.ocLive.toNat (2 * u / ocSlot)
    press := press
    whey := whey
    phase := phase
    lslot := o.lslot
    ladleStall := o.ladleStall
    fullStall := o.fullStall
    param := o.param }

/-! ### Charging (R184, R497) -/

/-- The counts of a core charged to its context since they were last charged; the press and whey busy times are
times of clocks that the model does not count, so they rise by free values (log entry 2). -/
def charge (s : State) (c : Nat) : State :=
  let k := coreOf s c
  match k.ctx with
  | none => s
  | some i =>
    let pb := freeVal s
    let s := drawn s
    let wb := freeVal s
    let s := drawn s
    modCtx s i fun x =>
      { x with
        issued := x.issued + (k.issueCnt - mget x.base 0 (2 * c))
        resident := x.resident + (k.resCnt - mget x.base 0 (2 * c + 1))
        pressBusy := x.pressBusy + BitVec.ofNat 64 pb
        wheyBusy := x.wheyBusy + BitVec.ofNat 64 wb
        base := mput (mput x.base (2 * c) k.issueCnt) (2 * c + 1) k.resCnt }

/-- CTX_COUNTER_UPDATE (R497). -/
def execCtxCounterUpdate (s : State) : Res := onHub s <| .next ((List.range 256).foldl charge s)

/-! ### Switching -/

/-- Whether no queued or running work of a core is left but its groups. -/
def quiet (k : Core) : Bool :=
  k.press.queue.isEmpty && k.press.runs.isEmpty && k.press.writes.isEmpty && k.whey.queue.isEmpty && k.whey.runs.isEmpty &&
    k.ladleQ.isEmpty && k.acc.isEmpty && k.fences.isEmpty && k.whey.writes.isEmpty

/-- The context of core c switched out: charged, its state saved, with the admission queue entries `own`. -/
def switchOut (s : State) (c : Nat) (own : AdmBlock → Bool) : State :=
  let k := coreOf s c
  match k.ctx with
  | none => s
  | some i =>
    let s := charge s c
    let s := match ctx? s i with
      | some x =>
        let s := if x.saveObj.isSome then saveMems s c (saveAt x c) else s
        modCtx s i fun x => { x with saved := mput x.saved c { k with admQ := k.admQ.filter own, l1 := [] } }
      | none => s
    let s := modCore s c fun k => { loadRegs { k with admQ := k.admQ.filter fun b => !own b } {} with ctx := none, stopped := false }
    modCore s c fun k => { k with groups := [], blocks := [] }

/-- The culture of a core taken from a snapshot (R451). -/
def loadCulture (k : Core) (x : Dword × Map Dword) : Core := { k with whey := { k.whey with seed := x.1, ctr := x.2 } }

/-- The culture that a restore has kept for the job context that now comes to core c for the first time (R451). -/
def takeCulture (s : State) (c i : Nat) : State :=
  match mget? s.turn.cultures c with
  | some x =>
    if isJobCtx s i then
      modCore { s with turn := { s.turn with cultures := mdel s.turn.cultures c } } c fun k => loadCulture k x
    else s
  | none => s

/-- A context switched in on core c, which wakes a stopped press (R541). -/
def switchIn (s : State) (c i : Nat) : State :=
  match ctx? s i with
  | none => s
  | some x =>
    let s := match mget? x.saved c with
      | some o =>
        let s := modCore s c fun k => loadRegs k o
        if x.saveObj.isSome then loadMems s c (saveAt x c) else s
      | none => takeCulture (modCore s c fun k => loadRegs k {}) c i
    let k := coreOf s c
    let s := pressWake (modCore s c fun k => { k with ctx := some i }) c
    modCtx s i fun x =>
      { x with saved := mdel x.saved c, base := mput (mput x.base (2 * c) k.issueCnt) (2 * c + 1) k.resCnt }

/-- The save slot of a context's core that a switch writes or reads, if it has one. -/
def saveRange (s : State) (c i : Nat) : Option Nat :=
  (ctx? s i).bind fun x => if x.saveObj.isSome then some (saveAt x c) else none

/-- Whether the memories that a switch moves wait: the save slot of the outgoing context is held or asleep, or that of the
incoming one is asleep (R283, R429). -/
def saveWaits (s : State) (out inc : Option Nat) : Bool :=
  (out.any fun a => writeWaits s a saveSlot) || inc.any fun a => asleep s a saveSlot

/-- Room asked for them. -/
def saveAsk (s : State) (out inc : Option Nat) : State :=
  let s := match out with | some a => askRoom s a saveSlot | none => s
  match inc with | some a => askWake s a saveSlot | none => s

/-- CONTEXT_SWITCH (R491): the core holds no block and no queued work of the outgoing context. -/
def execContextSwitch (c ctx : Nat) (s : State) : Res := onHub s <|
  onCore c (.next (
    let k := coreOf s c
    match ctx? s ctx with
    | none => s
    | some x =>
      if k.ctx ≠ some ctx && !k.stopped && k.blocks.isEmpty && quiet k && x.slot && x.state = 1 && bitOf x.cores.toNat c then
        let out := k.ctx.bind (saveRange s c)
        let inc := saveRange s c ctx
        if saveWaits s out inc then saveAsk s out inc else switchIn (switchOut s c fun _ => false) c ctx
      else s))

/-- PRIO of the queue of a launch. -/
def prioOf (s : State) (l : Nat × Nat) : Nat := match queue? s l.1 with | some x => x.prio | none => 0

/-- Whether a launch of higher PRIO needs a core that runs a context of lower PRIO (R491). -/
def preemptDue (s : State) (c : Nat) : Bool :=
  let k := coreOf s c
  match k.ctx with
  | none => false
  | some i =>
    let cur := k.blocks.foldl (fun m kv => max m (prioOf s kv.2.launch)) 0
    !k.blocks.isEmpty &&
      ((k.admQ.any fun b => b.ctx != i && decide (cur < prioOf s b.launch)) ||
       s.obj.queues.any fun kv =>
        match kv.2.ctx, startable s kv.2 with
        | some j, some d => j != i && eOpc d.entry == 1 && bitOf (lCores d.entry) c && decide (cur < kv.2.prio)
        | _, _ => false)

/-- PREEMPT (R138, R179, R491): the core stops issuing; once its queues are empty its state is saved. -/
def execPreempt (c : Nat) (s : State) : Res := onHub s <|
  onCore c (.next (
    let k := coreOf s c
    if !preemptDue s c && !(k.stopped && k.phase.held.isNone) then s
    else if quiet k then
      let out := k.ctx.bind (saveRange s c)
      if saveWaits s out none then saveAsk s out none else switchOut s c fun b => k.ctx == some b.ctx
    else modCore s c fun k => { k with stopped := true }))

end Sys2Proof.Machine
end

