-- ==== Sys2Proof/Machine/Ladles.lean ====
section
/-! DEFINITION. Ladles (R298 to R304, R326): submission, assignment, blocks, completion; NVMe (R585 to R587). -/

namespace Sys2Proof.Machine

/-! ### Commands (R298, R299) -/

def lWord (l : LadleCmd) (i : Nat) : Nat := (l.words.getD i 0).toNat
def lRows (l : LadleCmd) : Nat := fld (lWord l 0) 63 48 + 1
def lPrio (l : LadleCmd) : Nat := fld (lWord l 0) 15 14
def lFenceEn (l : LadleCmd) : Bool := bitOf (lWord l 0) 13
def lAfterPrev (l : LadleCmd) : Bool := bitOf (lWord l 0) 12
def lOp (l : LadleCmd) : Nat := fld (lWord l 0) 11 8
def lVer (l : LadleCmd) : Nat := fld (lWord l 0) 7 0
def lSrc (l : LadleCmd) : Nat := lWord l 1
def lDst (l : LadleCmd) : Nat := lWord l 2
def lNsid (l : LadleCmd) : Nat := fld (lWord l 3) 39 32
def lLen (l : LadleCmd) : Nat := fld (lWord l 3) 31 0
def lSrcStride (l : LadleCmd) : Nat := fld (lWord l 4) 47 0
def lDstStride (l : LadleCmd) : Nat := fld (lWord l 5) 47 0

/-- Whether a command is an NVMe one. -/
def lNvme (l : LadleCmd) : Bool := lOp l == 2 || lOp l == 3

/-- Memory side of a command whose blocks are counted: the source of an NVMe write, else the destination. -/
def lMem (l : LadleCmd) : Nat := if lOp l = 3 then lSrc l else lDst l
def lMemStride (l : LadleCmd) : Nat := if lOp l = 3 then lSrcStride l else lDstStride l

/-- The LBA side of an NVMe command: first LBA and stride in LBAs (R298). -/
def lLba (l : LadleCmd) : Nat := if lOp l = 2 then lSrc l else lDst l
def lLbaStride (l : LadleCmd) : Nat := if lOp l = 2 then lSrcStride l else lDstStride l

/-- The namespace of an NSID index, where in service (R587). -/
def nvmeNs (s : State) (n : Nat) : Option NvmeNs :=
  let p := mget s.pcies {} (n / 64)
  if p.nvme && !p.down then p.ns[n % 64]? else none

/-- Why a command fails before it moves a byte (R299, R587). -/
def ladleBad (s : State) (l : LadleCmd) : Option Status :=
  if lVer l ≠ 1 || 3 < lOp l || 1 < lPrio l || lLen l = 0 then some .descInvalid
  else if lNvme l then
    match nvmeNs s (lNsid l) with
    | none => some .descInvalid
    | some ns =>
      if lLen l % ns.lbaSize ≠ 0 then some .descInvalid
      else if (List.range (lRows l)).all fun r => decide (lLba l + r * lLbaStride l + lLen l / ns.lbaSize ≤ ns.lbas) then none
      else some .addressFault
  else none

/-! ### Rows and blocks (R300) -/

/-- Address of a row: local, or above `2 ^ 48` with the node ID as written (R31, R362). -/
def rowKey (s : State) (base stride r : Nat) : Nat := globalKey s ((base + r * stride) % 2 ^ 64)

/-- 64-byte blocks of a row that begins at `d`. -/
def rowBlocks (d len : Nat) : Nat := (d + len - 1) / 64 - d / 64 + 1

/-- Blocks of the rows from row r on, `n` rows. -/
def blocksFrom (s : State) (l : LadleCmd) : Nat → Nat → Nat
  | 0, _ => 0
  | n + 1, r => rowBlocks (rowKey s (lMem l) (lMemStride l) r) (lLen l) + blocksFrom s l n (r + 1)

/-- All blocks of a command. -/
def ladleBlocks (s : State) (l : LadleCmd) : Nat := blocksFrom s l (lRows l) 0

/-- Block k from row r on: the row, the offset of its first byte in the row and its bytes. -/
def findBlock (s : State) (l : LadleCmd) : Nat → Nat → Nat → Option (Nat × Nat × Nat)
  | 0, _, _ => none
  | n + 1, r, k =>
    let d := rowKey s (lMem l) (lMemStride l) r
    let m := rowBlocks d (lLen l)
    if k < m then
      let first := max d ((d / 64 + k) * 64)
      let last := min (d + lLen l) ((d / 64 + k + 1) * 64)
      some (r, first - d, last - first)
    else findBlock s l n (r + 1) (k - m)

/-- The bytes of a FILL at an address: the matching bytes of the pattern (R298). -/
def fillBytes (pat a n : Nat) : Bytes := (List.range n).map fun i => BitVec.ofNat 8 (pat / 256 ^ ((a + i) % 8))

/-! ### Submission (R302, R303, R326) -/

/-- A command of group slot k of core c submitted with the eight words of its slot; the accesses that the core issued
before number n are its release (R302, R326). -/
def submitLadle (s : State) (c k n : Nat) (v : Dword) : State :=
  let x := coreOf s c
  let lslot := mset x.lslot 0 (8 * k + 7) v
  let blk := match mget? x.groups k with | some g => g.blk | none => 0
  let l : LadleCmd :=
    { words := (List.range 8).map fun w => mget lslot 0 (8 * k + w), src := (0, 48 * c + k), order := s.ladleOrder,
      prev := ladlePrev s (0, 48 * c + k), ctx := x.ctx.getD 0, core := some (c, blk),
      cmd := (mget? x.blocks blk).map (·.launch), n := n }
  let blocks := x.blocks.map fun kv => if kv.1 = blk then (kv.1, { kv.2 with ladles := kv.2.ladles + 1 }) else kv
  ladleSent
    (setCore s c
      { x with lslot := lslot, ladleQ := x.ladleQ ++ [l], blocks := blocks, ladleStall := x.ladleStall.filter fun g => g ≠ k })
    (0, 48 * c + k)

/-- LADLE_SUBMIT (R302, R303): a store to the word of a slot at offset 0x38. It stalls its group while the ladle queue is
full or its free entries belong to groups that stalled before. -/
def execLadleSubmit (c k : Nat) (v : Dword) (s : State) : Res :=
  onCore c (onUnit 48 k (.next (
    let x := coreOf s c
    if mayTake x.ladleStall k (ladleRoom x) then submitLadle s c k x.isn v
    else
      modCore s c fun x =>
        { x with fullStall := true, ladleStall := if x.ladleStall.contains k then x.ladleStall else x.ladleStall ++ [k] })))

/-! ### Assignment (R301) -/

/-- Every queued ladle command. -/
def queuedLadles (s : State) : List LadleCmd := s.hubLadles ++ s.cores.flatMap fun kv => kv.2.ladleQ

/-- Whether the command of an order number is queued or runs. -/
def ladleLeft (s : State) (order : Nat) : Bool :=
  ((queuedLadles s).any fun l => l.order == order) || s.ladles.any fun kv => kv.2.cmd.order == order

/-- Whether a queued command may start: its release has reached the module point, and under AFTER_PREV the previous
command of its source has completed (R301, R326). -/
def ladleReady (s : State) (l : LadleCmd) : Bool :=
  let released := match l.core with | some (c, _) => allReached (coreOf s c) c l.n 5 | none => true
  released && (!lAfterPrev l || !(l.prev.any (ladleLeft s)))

/-- The next command that takes a ladle: PRIO 0 before others, then the order of submission (R301). -/
def nextLadle (s : State) : Option LadleCmd :=
  let rs := (queuedLadles s).filter (ladleReady s)
  let best (ls : List LadleCmd) : Option LadleCmd :=
    ls.foldl (fun m l => match m with | some x => if l.order < x.order then some l else m | none => some l) none
  match best (rs.filter fun l => lPrio l = 0) with
  | some l => some l
  | none => best rs

/-- A ladle's command changed. -/
def modLadle (s : State) (l : Nat) (f : LadleRun → LadleRun) : State :=
  match mget? s.ladles l with
  | some r => { s with ladles := mput s.ladles l (f r) }
  | none => s

/-- A ladle's command failed. -/
def ladleFail (s : State) (l : Nat) (st : Status) : State := modLadle s l fun r => { r with fail := some (r.fail.getD st) }

/-! ### NVMe commands (R586, R587) -/

/-- Bytes of one NVMe command: the lesser of MDTS and 1 MiB, in whole LBAs; an MDTS of 0 sets no limit. -/
def nvmeChunk (s : State) (l : LadleCmd) : Nat :=
  let size := match nvmeNs s (lNsid l) with | some ns => ns.lbaSize | none => 512
  let mdts := (mget s.pcies {} (lNsid l / 64)).mdts
  max size ((if mdts = 0 then 0x100000 else min mdts 0x100000) / size * size)

/-- NVMe commands of a row, and of all rows. -/
def nvmePerRow (r : LadleRun) : Nat := ceilDiv (lLen r.cmd) r.chunk
def nvmeCount (r : LadleRun) : Nat := if lNvme r.cmd then lRows r.cmd * nvmePerRow r else 0

/-- NVMe command i: its row, the offset of its first byte in the row and its bytes. -/
def nvmePiece (r : LadleRun) (i : Nat) : Nat × Nat × Nat :=
  let off := i % nvmePerRow r * r.chunk
  (i / nvmePerRow r, off, min r.chunk (lLen r.cmd - off))

/-- First LBA of NVMe command i. -/
def nvmeLba (r : LadleRun) (size i : Nat) : Nat :=
  let p := nvmePiece r i
  lLba r.cmd + p.1 * lLbaStride r.cmd + p.2.1 / size

/-- A PCIe link changed. -/
def modPcie (s : State) (l : Nat) (f : Pcie → Pcie) : State := { s with pcies := mput s.pcies l (f (mget s.pcies {} l)) }

/-- The PRP entries of `n` bytes at a local address: the address, and the pages of 4,096 bytes after its own (R586, log entry
110); none where the data pass through the ladle from or to another node. -/
def prpList (a n : Nat) : List Nat :=
  if !isLocal a then []
  else a :: ((List.range (n / 4096 + 1)).map fun i => (a / 4096 + 1 + i) * 4096).filter fun x => decide (x < a + n)

/-- The queue pair of a ladle on a link changed (R586). -/
def modPair (s : State) (link l : Nat) (f : NvmePair → NvmePair) : State :=
  modPcie s link fun p => { p with pairs := lset p.pairs l (f (p.pairs.getD l {})) }

/-- NVMe commands of a ladle's command submitted in ascending LBA order while its queue has room: a queue of depth 256
holds 255 (R586, R587, log entry 110). -/
def issueNvme (s : State) (l : Nat) : State :=
  match mget? s.ladles l with
  | none => s
  | some r =>
    match nvmeNs s (lNsid r.cmd) with
    | none => s
    | some ns =>
      if r.fail.isSome || !lNvme r.cmd then s
      else
        (List.range (min (255 - r.nv.length) (nvmeCount r - r.nvNext))).foldl
          (fun s j =>
            let i := r.nvNext + j
            let link := lNsid r.cmd / 64
            let p := nvmePiece r i
            let write := lOp r.cmd == 3
            let a := (if write then rowKey s (lSrc r.cmd) (lSrcStride r.cmd) p.1 else rowKey s (lDst r.cmd) (lDstStride r.cmd) p.1) + p.2.1
            let s := modLadle s l fun x => { x with nv := x.nv ++ [(i, now s)], nvNext := i + 1 }
            emit (modPair s link l fun q => { q with tail := q.tail + 1 })
              (.nvme link ns.nsid write (nvmeLba r ns.lbaSize i) (p.2.2 / ns.lbaSize) (prpList a p.2.2))) s

/-- LADLE_COMMAND_START (R301, R303, R587). -/
def execLadleCommandStart (l : Nat) (s : State) : Res := onHub s <|
  onUnit 16 l (.next (
    match mget? s.ladles l, nextLadle s with
    | none, some x =>
      let gone (ls : List LadleCmd) : List LadleCmd := ls.filter fun y => y.order ≠ x.order
      let cores := s.cores.map fun kv => (kv.1, { kv.2 with ladleQ := gone kv.2.ladleQ })
      let run : LadleRun :=
        { cmd := x, done := [], due := [], fail := ladleBad s x, bytes := 0, chunk := if lNvme x then nvmeChunk s x else 0 }
      issueNvme { s with cores := cores, hubLadles := gone s.hubLadles, ladles := mput s.ladles l run } l
    | _, _ => s))

/-! ### Blocks (R300) -/

/-- A block's bytes written at its destination: at home, held (R140, R429) or asleep (R283), in which case the
ladle waits, also for a regeneration of what a core ahead in its optimizer phase writes (R256), or by a WRITE to another
node. -/
def ladlePut (s : State) (l k a : Nat) (bs : Bytes) : State :=
  let n := bs.length
  if (mget? s.ladles l).any fun r => r.fail.isSome then s
  else if isLocal a then
    match memCheck s a n with
    | some st => ladleFail s l st
    | none =>
      let early := (mget? s.ladles l).any fun r => r.cmd.core.any fun c => optHeld s c.1 a n
      if asleep s a n then askWake s a n
      else if writeHeld s a n then raiseUrgent s a n
      else if early then s
      else
        modLadle (memPut s a bs) l fun r =>
          { r with
            done := kput r.done k
            due := kdel r.due k
            wait := r.wait.filter fun x => x.1 ≠ k
            bytes := r.bytes + n }
  else
    let s := modLadle s l fun r => { r with due := kput r.due k, bytes := r.bytes + n }
    request s (.ladleWrite l k)
      { dst := (remoteOf a).1, src := 0, job := 0, opc := 1, tc := 0, addr := (remoteOf a).2, agent := 0x100 + l,
        body := writeBody (a % 64) bs }

/-- Where block k of a ladle's command goes: destination key, source key, offset in the row, bytes. -/
def blockPlace (s : State) (l : LadleCmd) (k : Nat) : Option (Nat × Nat × Nat × Nat) :=
  (findBlock s l (lRows l) 0 k).map fun (r, off, n) =>
    (rowKey s (lDst l) (lDstStride l) r + off, rowKey s (lSrc l) (lSrcStride l) r + off, off, n)

/-- A block of an NVMe read whose data has come and that waits for its memory (R300, R587). -/
def ladleWaiting (s : State) (l : Nat) (r : LadleRun) (k : Nat) : State :=
  match r.wait.find? fun x => x.1 == k with
  | some x => ladlePut s l k x.2.1 x.2.2
  | none => s

/-- The bytes of a COPY block at its destination: those that lie in a source row too are undefined, so free values
(R299, log entry 122). -/
def copiedBytes (s : State) (l : LadleCmd) (d : Nat) (bs : Bytes) : Bytes :=
  let inSource (a : Nat) : Bool := (List.range (lRows l)).any fun r =>
    let b := rowKey s (lSrc l) (lSrcStride l) r
    decide (b ≤ a) && decide (a < b + lLen l)
  bs.mapIdx fun i b => if inSource (d + i) then BitVec.ofNat 8 (Config.free (s.freeIx + i)) else b

/-- A block that ladle l has read: written where the command says, or kept for the NVMe write that takes it. -/
def ladleTake (s : State) (l k : Nat) (c : LadleCmd) (d : Nat) (bs : Bytes) : State :=
  if lOp c = 3 then
    modLadle s l fun r => { r with done := kput r.done k, due := kdel r.due k, data := mput r.data k bs, bytes := r.bytes + bs.length }
  else if lOp c = 0 then ladlePut { s with freeIx := s.freeIx + bs.length } l k d (copiedBytes s c d bs)
  else ladlePut s l k d bs

/-- LADLE_BLOCK (R300): block k of the command that ladle l runs. -/
def execLadleBlock (l k : Nat) (s : State) : Res := onHub s <|
  onUnit 16 l (.next (
    match mget? s.ladles l with
    | none => s
    | some r =>
      if r.fail.isSome || r.done.contains k || r.due.contains k then s
      else if lOp r.cmd = 2 then ladleWaiting s l r k
      else match blockPlace s r.cmd k with
        | none => s
        | some (d, a, _, n) =>
          if lOp r.cmd = 1 then ladlePut s l k d (fillBytes (lSrc r.cmd) d n)
          else if isLocal a then
            match memCheck s a n with
            | some st => ladleFail s l st
            | none =>
              if asleep s a n then askWake s a n
              else if isBad s a n then ladleFail (poisonMet s (badAt s a n) 0 (some r.cmd.ctx)) l .memPoison
              else ladleTake s l k r.cmd d (rdBytes s a n)
          else
            request (modLadle s l fun r => { r with due := kput r.due k }) (.ladleRead l k)
              { dst := (remoteOf a).1, src := 0, job := 0, opc := 2, tc := 0, addr := (remoteOf a).2, len := n,
                agent := 0x100 + l }))

/-! ### Completion (R300, R327) -/

/-- A ladle's command ended: its fence is signalled, its block and its command are told (R153, R300, R484). -/
def ladleEnd (s : State) (l : Nat) (r : LadleRun) (st : Status) : State :=
  let c := r.cmd
  let s := { s with ladles := mdel s.ladles l }
  let s := modCtx s c.ctx fun x => { x with ladleBytes := x.ladleBytes + BitVec.ofNat 64 r.bytes }
  let s := if lFenceEn c then signalFence s (fld (lWord c 6) 23 0) (lWord c 7) st else s
  match c.core, c.cmd with
  | some _, _ => blockLadleEnd s c
  | none, some (q, seq) => finish s q seq st r.bytes
  | none, none => s

/-- Whether every block of a ladle's command is written: of an NVMe one, whether its NVMe commands have ended and no block
waits. -/
def ladleDone (s : State) (r : LadleRun) : Bool :=
  if lNvme r.cmd then nvmeCount r ≤ r.nvNext && r.wait.isEmpty else r.done.length == ladleBlocks s r.cmd

/-- LADLE_COMPLETE (R300): every block is written, or the command has failed and nothing of it is under way. -/
def execLadleComplete (l : Nat) (s : State) : Res := onHub s <|
  onUnit 16 l (.next (
    match mget? s.ladles l with
    | none => s
    | some r =>
      if !r.due.isEmpty || !r.nv.isEmpty then s
      else match r.fail with
        | some st => ladleEnd s l r st
        | none => if ladleDone s r then ladleEnd s l r .ok else s))

/-! ### NVMe (R585 to R587) -/

/-- PCIE_LERR raised: 48 REPLAY, 32 ECRC_ERR, 16 CPL_ERR, 0 TIMEOUT (R594). -/
def countPcie (s : State) (l lo n : Nat) : State := modPcie s l fun p => { p with lerr := bump16 p.lerr lo n }

/-- The source bytes of an NVMe write's command, once the ladle has read every block of them. -/
def nvmeSource (s : State) (r : LadleRun) (p : Nat × Nat × Nat) : Option Bytes :=
  let ks := (List.range (ladleBlocks s r.cmd)).filterMap fun k =>
    (findBlock s r.cmd (lRows r.cmd) 0 k).bind fun b =>
      if b.1 = p.1 && decide (b.2.1 < p.2.1 + p.2.2) && decide (p.2.1 < b.2.1 + b.2.2) then some (k, b.2.1) else none
  if ks.all fun k => (mget? r.data k.1).isSome then
    some (sliceB (ks.flatMap fun k => mget r.data [] k.1) (p.2.1 - (match ks with | k :: _ => k.2 | [] => 0)) p.2.2)
  else none

/-- The data of an NVMe Read written to its destination in parts of one 64-byte block each; a part that does
not land yet waits in the ladle, whose command is complete only once it is performed (R300, R325). -/
def nvmeLand (s : State) (l : Nat) (c : LadleCmd) (p : Nat × Nat × Nat) (data : Bytes) : State :=
  let a := rowKey s (lDst c) (lDstStride c) p.1 + p.2.1
  let ws := writeBlocks a (padB p.2.2 data)
  let k (w : HeldWrite) : Nat := p.1 * lLen c + p.2.1 + (w.addr - a)
  if isLocal a then
    let t := modLadle (drawn s) l fun x => { x with wait := x.wait ++ ws.map fun w => (k w, w.addr, w.data) }
    (landNow s ws).1.foldl (fun s w => ladlePut s l (k w) w.addr w.data) t
  else ws.foldl (fun s w => ladlePut s l (k w) w.addr w.data) s

/-- NVME_COMMAND_COMPLETE (R587): NVMe command i of ladle l ends, after as many data-link replays. A Write ends once the
ladle has read its data. -/
def execNvmeCommandComplete (l : Nat) (r : NvmeEnd) (s : State) : Res := onHub s <|
  let i := r.cmd
  onUnit 16 l (.next (
    match mget? s.ladles l with
    | none => s
    | some x =>
      match x.nv.find? fun q => q.1 == i with
      | none => s
      | some q =>
        let link := lNsid x.cmd / 64
        let s := if r.replays = 0 then s else countPcie s link 48 r.replays
        let ended := modLadle (modPair s link l fun q => { q with head := q.head + 1 }) l fun x => { x with nv := x.nv.filter fun q => q.1 != i }
        let p := nvmePiece x i
        match r.result with
        | .error => ladleFail (countPcie ended link 16 1) l .memPoison
        | .tlp => ladleFail (countPcie ended link 32 1) l .memPoison
        | .ecrc => if (mget s.pcies {} link).ecrc then ladleFail (countPcie ended link 32 1) l .memPoison else s
        | .timeout =>
          if subMod 64 (now s) q.2 < s.fab.tmo.toNat then s else ladleFail (countPcie ended link 0 1) l .remoteTimeout
        | .ok data =>
          if x.fail.isSome then ended
          else if lOp x.cmd = 3 then
            match nvmeSource s x p, nvmeNs s (lNsid x.cmd) with
            | some bs, some ns => issueNvme (emit ended (.nvmeData link ns.nsid (nvmeLba x ns.lbaSize i) bs)) l
            | _, _ => s
          else issueNvme (nvmeLand ended l x.cmd p data) l))

/-- PCIE_LINK_DOWN (R585, R587): NVMe commands under way on the link fail with REMOTE_TIMEOUT. -/
def execPcieLinkDown (l : Nat) (s : State) : Res := onHub s <|
  onUnit 4 l (.next (
    let s := modPcie s l fun p => { p with down := true, speed := 0, width := 0 }
    (List.range 16).foldl
      (fun s i =>
        match mget? s.ladles i with
        | some r =>
          if lNvme r.cmd && lNsid r.cmd / 64 == l && !r.nv.isEmpty then
            ladleFail (modLadle (countPcie s l 0 r.nv.length) i fun r => { r with nv := [] }) i .remoteTimeout
          else s
        | none => s) s))

/-- The rind enables a link: its PERST_L goes high (R586, R599). -/
def releasePerst (s : State) (l : Nat) : State :=
  if (mget s.pcies {} l).perstLow then emit (modPcie s l fun p => { p with perstLow := false }) (.perst l) else s

/-- Codes of SPEED and WIDTH (R594). -/
def rateCode : PcieRate → Nat
  | .gen1 => 1 | .gen2 => 2 | .gen3 => 3 | .gen4 => 4 | .gen5 => 5 | .gen6 => 6
def widthCode : PcieWidth → Nat
  | .x1 => 1 | .x2 => 2 | .x4 => 4

/-- NVME_ENABLE (R585, R586, R599): during stage 3 of a cold start or RIND_UP of a warm start the link trains, and the
controller of an NVMe device is enabled, with an admin queue and a queue pair per ladle. -/
def execNvmeEnable (l : Nat) (d : NvmeDrive) (s : State) : Res := onRind s <|
  onUnit 4 l (.next (
    let now_ := if s.start.warm then s.start.stage == 2 else s.start.stage == 3
    let p := mget s.pcies {} l
    if s.start.mode != .normal || !now_ || p.down || p.speed != 0 then s
    else
      let s := modPcie (releasePerst s l) l fun p =>
        { p with speed := BitVec.ofNat 4 (rateCode d.speed), width := BitVec.ofNat 3 (widthCode d.width), ecrc := d.ecrc }
      if !d.isNvme then modPcie s l fun p => { p with disabled := p.disabled + 1 }
      else modPcie s l fun p =>
        { p with
          nvme := true
          admin := true
          pairs := List.replicate 16 {}
          mdts := d.mdts
          ns := (d.namespaces.filter fun n => (n.lbaSize == 512 || n.lbaSize == 4096) && !n.metadata).take 64 }))

end Sys2Proof.Machine
end

