-- ==== Sys2Proof/Machine/Remote.lean ====
section
/-! DEFINITION. Requests and responses of other modules at this module's memory (R30, R321, R322, R340,
R354, R365, R366). -/

namespace Sys2Proof.Machine

/-! ### The membership test (R354) -/

/-- Whether a node belongs to the membership of the current job: a member, the spare behind a member's
alias, or an idle spare. -/
def isMember (s : State) (n : Nat) : Bool :=
  s.obj.members.any (fun m => m.1 == n || physNode s m.1 == n) || s.turn.spares.contains n

/-- Whether a request passes the membership test: control packets from any node. -/
def admitted (s : State) (k : Packet) : Bool :=
  k.tc == 2 || (isMember s k.src && (match s.obj.job with | some j => j.1 == k.job | none => false))

/-! ### Requests at the target -/

/-- The head of a virtual channel, where it is for this module. -/
def homeHead (s : State) (p vc : Nat) : Option Packet :=
  match vcHead s p vc with
  | some i => if isTransit s i.pkt then none else some i.pkt
  | none => none

/-- Two packets of one core (or ladle, or hub agent) of one node in one class (R322). -/
def sameFlow (a b : Packet) : Bool := a.src == b.src && a.agent == b.agent && a.tc == b.tc

/-- Writes and atomics of the same flow that wait in other buffers of this module (R322). -/
def earlierWrites (s : State) (p vc : Nat) (k : Packet) : List Packet :=
  s.ports.flatMap fun kv =>
    (kv.2.ingress.filter fun i =>
      (kv.1 != p || i.vc != vc) && sameFlow i.pkt k && !isTransit s i.pkt && (i.pkt.opc == 1 || i.pkt.opc == 4)).map (·.pkt)

/-- Whether a request waits behind a release of its flow that is held here (R317, R322). -/
def behindHeld (s : State) (k : Packet) : Bool := s.fab.held.any fun h => sameFlow h.1 k && !h.2.contains k

/-- An ERROR_RSP with a status (R340, R365). -/
def respondErr (s : State) (k : Packet) (st : Status) : State := respond s k 7 st.aux []

/-- A request from outside the membership: counted, and answered with ADDRESS_FAULT (R354). -/
def refuseReq (s : State) (k : Packet) : State := respondErr (modFab s fun f => { f with refused := f.refused + 1 }) k .addressFault

/-- Address of the three blocks of a packet (R340). -/
def blockBase (k : Packet) : Nat := k.addr / 64 * 64

/-- Mask and data of a WRITE: the bytes that it writes, block by block, as offset and run (R337, R340). -/
def maskBytes (k : Packet) : List (Nat × Byte) :=
  let mask := leVal (sliceB k.body 0 24)
  ((List.range 192).filter fun i => bitOf mask i).map fun i => (i, k.body.getD (24 + i) 0)

/-- The blocks of a WRITE that it touches. -/
def maskBlocks (k : Packet) : List Nat :=
  (List.range 3).filter fun b => (maskBytes k).any fun x => x.1 / 64 == b

/-- What a request for some blocks of memory meets (R30, R287). -/
def blocksCheck (s : State) (k : Packet) (bs : List Nat) : Option Status :=
  bs.findSome? fun b => memCheck s (blockBase k + 64 * b) 64

/-- Masked bytes written at memory: those of one block as one write of its runs (R280, R307). -/
def putMasked (s : State) (base : Nat) : List (Nat × Byte) → State
  | [] => s
  | x :: xs =>
    let s := putMasked s base xs
    { s with mem := mset s.mem 0 (base + x.1) x.2 }

/-- Whether a masked write covers a unit of poison whole. -/
def coversUnit (base : Nat) (ws : List (Nat × Byte)) (u : Nat) : Bool :=
  (List.range (unitSize u)).all fun i => ws.any fun w => base + w.1 == u + i

/-- A WRITE performed at memory: bytes, poison, tile tags and dirty bitmaps (R280, R296, R340). -/
def performWrite (s : State) (k : Packet) : State :=
  let base := blockBase k
  let ws := maskBytes k
  let s := ws.foldl (fun s w => dropTags s (base + w.1) 1) s
  let s := putMasked { s with bad := s.bad.filter fun u => !coversUnit base ws u } base ws
  if fld s.turn.tblCnt.toNat 8 0 = 0 then s
  else (maskBlocks k).foldl (fun s b => markDirty s (granulesOf s (base + 64 * b) 64)) s

/-- A WRITE of some of its blocks only: the mask of the others cleared. -/
def onlyBlocks (k : Packet) (bs : List Nat) : Packet :=
  let mask := leVal (sliceB k.body 0 24)
  { k with body := leBytes 24 ((List.range 192).foldl (fun m i => if bitOf mask i && bs.contains (i / 64) then m + 2 ^ i else m) 0) ++
      k.body.drop 24 }

/-- The blocks of a WRITE that memory takes but that land later than its other blocks, which ones is free (R307). -/
def laterBlocks (s : State) (k : Packet) : List Nat :=
  let bs := maskBlocks k
  if k.opc ≠ 1 || (blocksCheck s k bs).isSome ||
      bs.any fun b => asleep s (blockBase k + 64 * b) 64 || writeHeld s (blockBase k + 64 * b) 64 then []
  else (landNow s bs).2

/-- The other blocks of a WRITE performed before its later ones. -/
def writeSome (s : State) (k : Packet) (later : List Nat) : State :=
  performWrite s (onlyBlocks k ((maskBlocks k).filter fun b => !later.contains b))

/-- The operands of an ATOMIC: operation, bytes, b and c (R203, R340). -/
def atomParts (k : Packet) : Nat × Nat × Nat × Nat :=
  let n := if k.aux % 2 = 1 then 8 else 4
  (k.aux / 2, n, leVal (sliceB k.body 24 n), leVal (sliceB k.body 32 n))

/-- The further operands of a combined FADD, in lane order (R170, log entry 10). -/
def atomMore (k : Packet) : List Nat :=
  if k.aux / 2 ≠ 1 then []
  else
    let mask := leVal (sliceB k.body 0 24)
    ((List.range 31).filter fun i => bitOf mask (16 + 4 * i)).map fun i => leVal (sliceB k.body (40 + 4 * i) 4)

/-- What a checked request does: its response, or `none` while it waits for memory (R140, R283, R429). `bad` says that the
data of its response has an uncorrectable error on the way to the port (R296). -/
def performReq (s : State) (k : Packet) (bad : Bool) : Option State :=
  let poisoned (a n : Nat) : State := respondErr (poisonMet s (badAt s a n) 0 none) k .memPoison
  match k.opc with
  | 1 =>
    let bs := maskBlocks k
    match blocksCheck s k bs with
    | some st => some (respondErr s k st)
    | none =>
      if bs.any fun b => asleep s (blockBase k + 64 * b) 64 || writeHeld s (blockBase k + 64 * b) 64 then none
      else some (respond (performWrite s k) k 6 0 [])
  | 2 =>
    let o := k.addr % 64
    if k.len = 0 || 192 < o + k.len then some (respondErr s k .descInvalid)
    else match memCheck s k.addr k.len with
      | some st => some (respondErr s k st)
      | none =>
        if asleep s k.addr k.len then none
        else if isBad s k.addr k.len then some (poisoned k.addr k.len)
        else if bad then some (respondErr s k .memPoison)
        else some (respond s k 3 0 (writeBody o (rdBytes s k.addr k.len)))
  | _ =>
    let (op, n, b, c) := atomParts k
    if 10 < op || (op = 1 && n = 8) then some (respondErr s k .descInvalid)
    else match memCheck s k.addr n with
      | some st => some (respondErr s k st)
      | none =>
        if asleep s k.addr n || writeHeld s k.addr n then none
        else if isBad s k.addr n then some (poisoned k.addr n)
        else
          let old := rdNum s k.addr n
          let s := memPutNum s k.addr n ((atomMore k).foldl (fun v b => atomNew op (8 * n) v b 0) (atomNew op (8 * n) old b c))
          some (if bad then respondErr s k .memPoison else respond s k 5 0 (writeBody 0 (leBytes 8 old)))

/-- Memory that a waiting request waits for, asked to make room: granules raised as urgent, channels woken. -/
def askMemory (s : State) (k : Packet) : State :=
  (List.range 3).foldl (fun s b => askWake (raiseUrgent s (blockBase k + 64 * b) 64) (blockBase k + 64 * b) 64) s

/-- A request of operation `opc` at the head of a virtual channel: membership first, then its own checks, the
hold of a release, and its effect (R322, R340, R354). -/
def serveReq (s : State) (p vc : Nat) (mine : Packet → Bool) : State :=
  match homeHead s p vc with
  | none => s
  | some k =>
    if !mine k || isRsp k.opc then s
    else if !admitted s k then refuseReq (takeHead s p vc) k
    else if k.opc = 0 || 9 < k.opc then respondErr (takeHead s p vc) k .descInvalid
    else if k.tc = 2 then respondErr (takeHead s p vc) k .addressFault
    else if behindHeld s k then s
    else
      let before := earlierWrites s p vc k
      if k.rel && !before.isEmpty then
        modFab (takeHead s p vc) fun f => { f with held := f.held ++ [(k, before)] }
      else if laterBlocks s k ≠ [] then
        putHead (writeSome (drawn s) k (laterBlocks s k)) p vc (onlyBlocks k (laterBlocks s k))
      else match performReq (drawn (takeHead s p vc)) k ((portOf s p).upset.contains vc) with
        | some t => modPort t p fun q => { q with upset := kdel q.upset vc }
        | none => askMemory s k

/-- WRITE (R340); a request with a reserved OPC is answered here too. -/
def execWrite (p vc : Nat) (s : State) : Res := onHub s <|
  onUnit 12 p (.next (serveReq s p vc fun k => k.opc == 1 || k.opc == 0 || decide (9 < k.opc)))

/-- READ_REQ (R340). -/
def execReadReq (p vc : Nat) (s : State) : Res := onHub s <| onUnit 12 p (.next (serveReq s p vc fun k => k.opc == 2))

/-- ATOMIC (R168, R340). -/
def execAtomic (p vc : Nat) (s : State) : Res := onHub s <| onUnit 12 p (.next (serveReq s p vc fun k => k.opc == 4))

/-- REMOTE_RELEASE_PERFORM (R322): release `k` of those held here, once the requests before it are performed. -/
def execRemoteReleasePerform (k : Nat) (s : State) : Res := onHub s <|
  .next (
    match s.fab.held[k]? with
    | none => s
    | some (r, before) =>
      let waiting := s.ports.any fun kv => kv.2.ingress.any fun i => before.contains i.pkt
      if waiting then s
      else if laterBlocks s r ≠ [] then
        modFab (writeSome (drawn s) r (laterBlocks s r)) fun f =>
          { f with held := lset f.held k (onlyBlocks r (laterBlocks s r), before) }
      else match performReq (drawn <| modFab s fun f => { f with held := f.held.erase (r, before) }) r false with
        | some t => t
        | none => askMemory s r)

/-! ### Responses (R321, R340, R365, R366) -/

/-- The tag of a response that is outstanding. -/
def liveTag (s : State) (tag : Nat) : Option TagRec :=
  match mget? s.fab.tags tag with
  | some r => if r.quar.isNone then some r else none
  | none => none

/-- A response at the head of a virtual channel handed to its agent; one without an outstanding tag is
discarded and counted (R366), so is one to a MAILBOX packet. `take` gets the state with the response taken and its tag freed; a state built on
`s` itself leaves the response where it is. -/
def serveRsp (s : State) (p vc opc : Nat) (take : State → TagRec → Packet → State) : State :=
  match homeHead s p vc with
  | none => s
  | some k =>
    if k.opc ≠ opc then s
    else match liveTag s k.tag with
      | none => countStale (takeHead s p vc)
      | some r => take (freeTag (takeHead s p vc) k.tag) r k

/-- Data byte i of a READ_RSP or ATOMIC_RSP. -/
def rspBytes (k : Packet) (start n : Nat) : Bytes := sliceB k.body (24 + start) n

/-- A load's lanes that a response covers take their values; a whole line is put into the L1 (R292, R293). -/
def takeLoad (s : State) (c n : Nat) (lanes : List Nat) (line : Option Nat) (k : Packet) : State :=
  let base := blockBase k
  let s := modAcc s c n fun a =>
    { a with
      due := a.due - 1
      lanes := a.lanes.map fun o =>
        if lanes.contains o.lane then
          { o with got := some (leVal (rspBytes k ((remoteOf o.addr).2 - base) a.width)) } else o }
  match line with
  | none => s
  | some l =>
    match fillLine (coreOf s c) n l (rspBytes k 0 64) with
    | some d => l1Fill s c l d
    | none => s

/-- READ_RSP (R340): data to a thread load or a ladle. -/
def execReadRsp (p vc : Nat) (s : State) : Res := onHub s <|
  onUnit 12 p (.next (serveRsp s p vc 3 fun t r k =>
    match r.use with
    | .load c n lanes line => takeLoad t c n lanes line k
    | .ladleRead l b =>
      match mget? t.ladles l with
      | none => t
      | some x =>
        let t := modLadle t l fun x => { x with due := kdel x.due b }
        if x.fail.isSome then t
        else match blockPlace t x.cmd b with
          | none => t
          | some (d, _, _, n) =>
            if lOp x.cmd ≠ 3 && isLocal d && (memCheck s d n).isNone && (writeHeld s d n || asleep s d n) then
              askWake (raiseUrgent s d n) d n
            else ladleTake t l b x.cmd d (rspBytes k (k.addr % 64) n)
    | _ => t))

/-- Lanes of an atomic that one response answers: those combined into its request each see the value as if
they had been performed one after another in lane order (R170, R171). -/
def atomLanes (a : Acc) (addr old first : Nat) : List LaneOp :=
  if atomCombines a.op then
    (a.lanes.foldl
      (fun (r : List LaneOp × Nat) o =>
        if o.addr = addr && o.got.isNone then
          (r.1 ++ [{ o with got := some r.2 }], atomNew a.op (8 * a.width) r.2 o.data o.alt)
        else (r.1 ++ [o], r.2)) ([], old)).1
  else a.lanes.map fun o => if o.lane = first then { o with got := some old } else o

/-- ATOMIC_RSP (R340): the old value; lanes sent one after another go on with the next one (R171). -/
def execAtomicRsp (p vc : Nat) (s : State) : Res := onHub s <|
  onUnit 12 p (.next (serveRsp s p vc 5 fun s r k =>
    match r.use with
    | .atom c n lane =>
      match (coreOf s c).acc.find? fun a => a.n == n with
      | none => s
      | some a =>
        match a.lanes.find? fun o => o.lane == lane with
        | none => s
        | some o =>
          let a := { a with lanes := atomLanes a o.addr (leVal (rspBytes k 0 a.width)) lane, due := a.due - 1 }
          match atomPkt c a o.addr with
          | some (q, next) => request (modAcc s c n fun _ => { a with due := a.due + 1 }) (.atom c n next) q
          | none => modAcc s c n fun _ => a
    | _ => s))

/-- WRITE_CPL (R321): the write of a thread, a ladle or a mirror is complete. -/
def execWriteCpl (p vc : Nat) (s : State) : Res := onHub s <|
  onUnit 12 p (.next (serveRsp s p vc 6 fun s r _ =>
    match r.use with
    | .store c n => settleAcc (modAcc s c n fun a => { a with due := a.due - 1 }) c n
    | .ladleWrite l b => modLadle s l fun x => { x with done := kput x.done b, due := kdel x.due b }
    | .mirror id => mirrorEnd s id false
    | .spare => spareEnd s
    | _ => s))

/-- A request that has not left this module taken back: it waits for a route, or for a credit of its port. So no response
to it can arrive once its tag is free again (R366; DESIGN CHOICE, log entry 131). -/
def withdraw (s : State) (tag : Nat) : State :=
  let mine (k : Packet) : Bool := k.tag == tag && k.src == ownNode s && !isRsp k.opc
  let s := modFab s fun f => { f with inj := f.inj.filter fun k => !mine k }
  { s with ports := s.ports.map fun kv => (kv.1, { kv.2 with txq := kv.2.txq.filter fun t => !mine t.pkt }) }

/-- REMOTE_TIMEOUT (R366): the tag is held back from reuse. -/
def execRemoteTimeout (tag : Nat) (s : State) : Res := onHub s <|
  .next (
    match liveTag s tag with
    | none => s
    | some r =>
      if s.fab.tmo.toNat ≤ subMod 64 (now s) r.since then
        let s := modFab (withdraw s tag) fun f => { f with tags := mput f.tags tag { r with quar := some (now s) } }
        useFail s r.use .remoteTimeout
      else s)

/-- TAG_QUARANTINE_END (R366). -/
def execTagQuarantineEnd (tag : Nat) (s : State) : Res := onHub s <|
  .next (
    match mget? s.fab.tags tag with
    | none => s
    | some r =>
      match r.quar with
      | some t => if s.fab.tmo.toNat ≤ subMod 64 (now s) t then freeTag s tag else s
      | none => s)

end Sys2Proof.Machine
end

