-- ==== Sys2Proof/Machine/Phases.lean ====
section
/-! DEFINITION. The replay log (R437 to R439, R452) and the phase marks of the cores (R421 to R424, R428). -/

namespace Sys2Proof.Machine

/-- The turning part changed. -/
def modTurn (s : State) (f : Turn → Turn) : State := { s with turn := f s.turn }

/-! ### The replay log -/

/-- Bytes of a record slot, and address of the record of a step (R437). -/
def rlogSize (s : State) : Nat := (fld s.turn.rlogBase.toNat 63 60 + 1) * 2 ^ 26
def rlogAt (s : State) (step : Nat) : Nat := fld s.turn.rlogBase.toNat 47 26 * 2 ^ 26 + step % 8 * rlogSize s

/-- Whether the log has a place in the cave (R437). -/
def rlogOn (s : State) : Bool := regionOf (fld s.turn.rlogBase.toNat 47 26 * 2 ^ 26) == .cave

/-- Whether the record slot of a step holds a record of it, and the record's bits. -/
def rlogHas (s : State) (step : Nat) : Bool := rlogOn s && fld (hubNum s (rlogAt s step) 8) 63 16 == step
def rlogComplete (s : State) (step : Nat) : Bool := bitOf (hubNum s (rlogAt s step) 8) 0
def rlogOvf (s : State) (step : Nat) : Bool := bitOf (hubNum s (rlogAt s step) 8) 1
def rlogCount (s : State) (step : Nat) : Nat := hubNum s (rlogAt s step + 0x10) 4

/-- Whether the outcomes of a step are those of its log record: COMPLETE without OVF, in the epoch in force
(R452). -/
def logged (s : State) (step : Nat) : Bool :=
  rlogHas s step && rlogComplete s step && !rlogOvf s step &&
    hubNum s (rlogAt s step + 8) 4 == s.fab.epoch.toNat

/-- The entries of a record, as their first three words (R438). -/
def rlogEntries (s : State) (step : Nat) : List (Nat × Nat × Nat) :=
  (List.range (rlogCount s step)).map fun i =>
    let a := rlogAt s step + 0x22000 + 32 * i
    (hubNum s a 8, hubNum s (a + 8) 8, hubNum s (a + 16) 8)

/-- An entry appended to the record of a step that is being made; one that does not fit sets OVF (R438, R439). -/
def rlogAdd (s : State) (step w0 w1 w2 : Nat) : State :=
  if !rlogHas s step || rlogComplete s step then s
  else
    let n := rlogCount s step
    let a := 0x22000 + 32 * n
    if rlogSize s < a + 32 then memWriteNum s (rlogAt s step) 8 (putFld step 48 16 + 2)
    else
      let s := memWrite s (rlogAt s step + a) (wordsB [w0, w1, w2, 0])
      memWriteNum s (rlogAt s step + 0x10) 8 (n + 1)

/-! ### Phase marks (R421 to R423) -/

/-- A change of the phase page of a core. -/
def modPhase (s : State) (c : Nat) (f : Phase → Phase) : State := modCore s c fun k => { k with phase := f k.phase }

/-- Bits of TURN_CTL: EN, MIRROR, and the steps between turnings (R462). -/
def turnEn (s : State) : Bool := bitOf s.turn.ctl.toNat 31
def mirrorOn (s : State) : Bool := bitOf s.turn.ctl.toNat 30
def turnInterval (s : State) : Nat := fld s.turn.ctl.toNat 1 0 + 1

/-- Whether a turning is due at P_s (R427). -/
def turnDue (s : State) (step : Nat) : Bool := turnEn s && step % turnInterval s == 0

/-- Step and phase of a PHASE_SET value (R464). -/
def markStep (v : Dword) : Nat := fld v.toNat 63 16
def markPhase (v : Dword) : Nat := fld v.toNat 2 0

/-- What a mark is for a core: none where it is ignored, else whether it changes step or phase and whether it
moves to a new step (R423). -/
def markKind (p : Phase) (v : Dword) : Option (Bool × Bool) :=
  let t := markStep v
  let q := markPhase v
  if q = 7 then none
  else match p.cur with
    | none => if q = 1 then some (true, true) else none
    | some (c, ph) =>
      if t = c then some (decide (q ≠ ph), false)
      else if t = c + 1 && q == 1 then some (true, true) else none

/-- The record of a step begun at its first FORWARD mark; the record of a logged re-run is kept (R437, R452). -/
def rlogBegin (s : State) (step : Nat) : State :=
  if !rlogOn s || logged s step then s
  else
    let a := rlogAt s step
    let s := memWriteNum s a 8 (putFld step 48 16)
    let s := memWriteNum s (a + 8) 8 (s.fab.epoch.toNat + putFld (fld s.turn.coordStat.toNat 63 32) 32 32)
    memWriteNum s (a + 0x10) 8 0

/-- The culture snapshot of a core put into the record of a step (R437). -/
def rlogSnap (s : State) (step c : Nat) (x : Dword × Map Dword) : State :=
  if !rlogHas s step || rlogComplete s step then s else memWrite s (rlogAt s step + 0x1000 + 520 * c) (snapBytes x.1 x.2)

/-- A mark performed (R422, R423). -/
def performMark (s : State) (c : Nat) (v : Dword) : State :=
  let k := coreOf s c
  match markKind k.phase v with
  | none => turnFlag s 10
  | some (_, isNew) =>
    let t := markStep v
    if isNew then
      let first := s.cores.all fun kv => match kv.2.phase.fwd with | some f => decide (f < t) | none => true
      let s := if first then rlogBegin s t else s
      let x := (k.whey.seed, k.whey.ctr)
      let s := rlogSnap s t c x
      modPhase s c fun p =>
        { p with
          cur := some (t, 1), fwd := some t, snaps := mput p.snaps t x
          prev := match p.cur with | some (o, _) => mput p.prev o p.ticks | none => p.prev
          ticks := [] }
    else modPhase s c fun p => { p with cur := some (t, markPhase v) }

/-- RETIRE_PEND of the press or the whey unit (R93, R244). -/
def retirePend (k : Core) : Bool := bitOf k.press.stat.toNat 6 || bitOf k.whey.stat.toNat 7

/-- Whether the core is to be moved to a spare at its next phase boundary (R453, R527). -/
def remapDue (k : Core) : Bool := retirePend k || (match k.test with | some (_, t) => t.immediate | none => false)

/-- Whether the FORWARD mark of a step waits for the copy of an earlier turning (R428). -/
def turnHolds (s : State) (step : Nat) : Bool := s.turn.run.isSome && decide (0 < step) && turnDue s (step - 1)

/-- A mark performed, or held: at a boundary of a core that is to be moved or tested, whose context the rind then stops,
and a FORWARD mark under R428 (R423, R428, R453, R527). -/
def takeMark (s : State) (c : Nat) (v : Dword) : State :=
  let k := coreOf s c
  match markKind k.phase v with
  | some (true, isNew) =>
    if remapDue k || k.test.isSome then
      modCore s c fun k => { k with stopped := true, phase := { k.phase with held := some v } }
    else if isNew && turnHolds s (markStep v) then turnFlag (modPhase s c fun p => { p with held := some v }) 11
    else performMark s c v
  | _ => performMark s c v

/-- A PHASE_SET store; none while it waits behind a held one or for the job's whey chains (R422). -/
def phaseStore (s : State) (c : Nat) (v : Dword) : Option State :=
  let k := coreOf s c
  if k.phase.held.isSome || (wheyHeld k).any fun e => isJobCtx s e.ctx then none else some (takeMark s c v)

/-- The held mark of a core looked at again. -/
def retryMark (s : State) (c : Nat) : State :=
  match (coreOf s c).phase.held with
  | none => s
  | some v => takeMark (modPhase s c fun p => { p with held := none }) c v

/-- The marks held for a copy that has ended (R428). -/
def retryMarks (s : State) : State := s.cores.foldl (fun s kv => retryMark s kv.1) s

/-- PHASE_SET (R421 to R423). -/
def execPhaseSet (c : Nat) (v : Dword) (s : State) : Res := onCore c (.next ((phaseStore s c v).getD s))

/-- A store to SHARD_PTR: a SHARD entry in the record of the core's step (R438). -/
def shardStore (s : State) (c : Nat) (v : Dword) : State :=
  match (coreOf s c).phase.cur with
  | none => s
  | some (step, _) => rlogAdd s step (putFld 1 8 56 + c) v.toNat 0

/-- SHARD_PTR (R438). -/
def execShardPtr (c : Nat) (v : Dword) (s : State) : Res := onCore c (.next (shardStore s c v))

end Sys2Proof.Machine
end

