-- ==== Sys2Proof/Machine/TurnCopy.lean ====
section
/-! DEFINITION. The copy of a turning, granule by granule, and its mirror at the twin (R429, R431, R432, R434
to R436, R551). -/

namespace Sys2Proof.Machine

/-- Bytes of a slot (R431). -/
def slotSize (s : State) : Nat := granule + ((turnRegions s).map Prod.snd).sum

/-- Base of the mirror slot k at a twin: it follows the own slot k (R435). -/
def mirrorBase (s : State) (k : Nat) : Nat := slotBase s k + slotSize s

/-- Address of a granule in a slot. -/
def slotGranule (s : State) (k n : Nat) : Nat := slotBase s k + granule + n * granule

/-- Slot of the latest complete turning, its step and whether there is one: no step has been turned while
LAST_STEP reads 0. -/
def lastSlot (s : State) : Nat := fld s.turn.stat.toNat 14 14
def lastStep (s : State) : Nat := fld s.turn.stat.toNat 63 16

/-- The digest of the region table (R431). -/
def tableDigest (s : State) : Bytes :=
  sha256 (hubBytes s (fld s.turn.tblBase.toNat 47 4 * 16) (16 * fld s.turn.tblCnt.toNat 8 0))

/-- Whether slot k holds a complete turning of a step that counts: VALID with the step and, in a module that has rejoined
after a warm start, for a turning from before it, the epoch of the join record and the digest of the table in force
(R431, R456). -/
def slotHolds (s : State) (k r : Nat) : Bool :=
  let h := hubNum s (slotBase s k) 8
  bitOf h 0 && fld h 63 16 == r &&
    match s.turn.rejoin with
    | none => true
    | some (epoch, last) =>
      decide (last < r) ||
        (hubNum s (slotBase s k + 8) 4 == epoch && hubBytes s (slotBase s k + 0x20) 32 == tableDigest s)

/-- The step of the latest complete turning that counts, if there is one. -/
def ownTurning (s : State) : Option Nat := if slotHolds s (lastSlot s) (lastStep s) then some (lastStep s) else none

/-- What tells whether slot k holds a turning: its header and, in a module that has rejoined, the region table. It waits for a
parked channel of them, which is asked to wake (R283). -/
def slotParts (s : State) (k : Nat) : List (Nat × Nat) :=
  (slotBase s k, 0x40) :: if s.turn.rejoin.isSome then [(fld s.turn.tblBase.toNat 47 4 * 16, 16 * fld s.turn.tblCnt.toNat 8 0)] else []
def anyAsleep (s : State) (xs : List (Nat × Nat)) : Bool := xs.any fun x => asleep s x.1 x.2
def askWakes (s : State) (xs : List (Nat × Nat)) : State := xs.foldl (fun s x => askWake s x.1 x.2) s

/-- The twin of this module (COORD_CTL). -/
def twinNode (s : State) : Nat := fld s.turn.coordCtl.toNat 31 16

/-- A run of bytes sent to the same addresses of a node in checkpoint-class WRITEs of up to three blocks (R340, R435):
the state and the number of requests. -/
def sendCkpt (s : State) (use : TagUse) (node a : Nat) (bs : Bytes) : State × Nat :=
  let o := a % 64
  let n := ceilDiv (o + bs.length) 192
  ((List.range n).foldl
    (fun s i =>
      let at_ := if i = 0 then o else 0
      let part := (bs.drop (192 * i + at_ - o)).take (192 - at_)
      request s use
        { dst := node, src := 0, job := 0, opc := 1, tc := 1, addr := a - o + 192 * i, agent := 0x200, body := writeBody at_ part }) s, n)

/-- A write of a turning's slot, at home and, with MIRROR, at the twin (R435). -/
def slotWrite (s : State) (r : TurnRun) (off : Nat) (bs : Bytes) : State :=
  let s := memPut s (slotBase s r.slot + off) bs
  if mirrorOn s then
    let (s, n) := sendCkpt s (.mirror r.id) (twinNode s) (mirrorBase s r.slot + off) bs
    modTurn s fun t => { t with run := t.run.map fun x => { x with due := x.due + n } }
  else s

/-- The writes of the slot's header that wait: performed unless one of them meets a parked channel, which is asked to
wake (R283, R431). -/
def slotTodo (s : State) : State :=
  match s.turn.run with
  | none => s
  | some r =>
    let at_ (w : Nat × Bytes) : Nat := slotBase s r.slot + w.1
    if r.todo.any fun w => asleep s (at_ w) w.2.length then r.todo.foldl (fun s w => askWake s (at_ w) w.2.length) s
    else r.todo.foldl (fun s w => slotWrite s r w.1 w.2) (modTurn s fun t => { t with run := some { r with todo := [] } })

/-- A slot's dirty bitmap (R434). -/
def setDirty (s : State) (k : Nat) (gs : List Nat) (full : Bool) : State :=
  modTurn s fun t => if k = 0 then { t with dirty0 := gs, full0 := full } else { t with dirty1 := gs, full1 := full }

/-- The turning in progress abandoned: VALID of its slot stays clear (R449, R551). -/
def abandonTurn (s : State) : State := retryMarks (flushHeld (modTurn s fun t => { t with run := none }))

/-- What follows the end of a turning's copy: marks that waited for it are performed, and the mirror is complete
but for its completions, unless a write of it has failed, which set MIRROR_FAIL then (R428, R435, R436). -/
def afterTurn (s : State) (r : TurnRun) : State :=
  let s :=
    if !mirrorOn s then s
    else if r.mfail then s
    else modTurn s fun t => { t with mirror := t.mirror ++ [{ id := r.id, step := r.step, slot := r.slot, due := r.due }] }
  retryMarks s

/-- The end of a turning: VALID with the step, once its channel is awake, then LAST_STEP and SLOT in one write (R283, R431,
R432). A mirror whose writes are not all complete follows under R435. -/
def endTurn (s : State) : State :=
  match s.turn.run with
  | none => s
  | some r =>
    if r.done.length < r.total || !r.todo.isEmpty then s
    else if asleep s (slotBase s r.slot) 8 then askWake s (slotBase s r.slot) 8
    else
      let s := memPutNum s (slotBase s r.slot) 8 (putFld r.step 48 16 + 1)
      let kept := fld s.turn.stat.toNat 13 0 - putFld (fld s.turn.stat.toNat 12 12) 1 12
      let s := modTurn s fun t =>
        { t with stat := BitVec.ofNat 64 (putFld r.step 48 16 + putFld r.slot 1 14 + kept), run := none }
      afterTurn s r

/-- Granule n copied into the slot; writes held on it go on. A granule that meets poison abandons the turning
and is a MEM_UE (R429, R432, R551). -/
def copyGranule (s : State) (n : Nat) : State :=
  match s.turn.run with
  | none => s
  | some r =>
    if r.done.contains n || r.total ≤ n then s
    else match granuleAddr (turnRegions s) n with
      | none => s
      | some a =>
        match badAt s a granule with
        | some u =>
          poisonMet (abandonTurn s) (some u) 0 none
        | none =>
          let s := memCopy s a (slotGranule s r.slot n) granule
          let s := modTurn s fun t => { t with run := some { r with done := kput r.done n, urgent := r.urgent.filter fun u => u ≠ n } }
          let s :=
            if mirrorOn s then
              let (s, m) := sendCkpt s (.mirror r.id) (twinNode s) (mirrorBase s r.slot + granule + n * granule) (rdBytes s a granule)
              modTurn s fun t => { t with run := t.run.map fun x => { x with due := x.due + m } }
            else s
          flushHeld (endTurn s)

end Sys2Proof.Machine
end

