-- ==== Sys2Proof/Machine/Mailbox.lean ====
section
/-! DEFINITION. Control-class messages of the coordinator pair (R440, R441, R443). -/

namespace Sys2Proof.Machine

/-! ### Mailbox messages -/

/-- A MAILBOX body without parts (R441). -/
def mailB (ty epoch dseq subject code step base : Nat) (ents : List Nat) : Bytes :=
  padB 216 (wordsB ([
    putFld ty 8 56 + putFld epoch 32 0,
    putFld dseq 32 32 + putFld subject 16 16 + putFld code 16 0,
    putFld step 48 16,
    putFld base 48 16 + putFld ents.length 8 0] ++ ents))

/-- Fields of a MAILBOX body. -/
def mType (b : Bytes) : Nat := fld (wordAt b 0) 63 56
def mPart (b : Bytes) : Nat := fld (wordAt b 0) 55 48
def mParts (b : Bytes) : Nat := fld (wordAt b 0) 47 40 + 1
def mEpoch (b : Bytes) : Nat := fld (wordAt b 0) 31 0
def mDseq (b : Bytes) : Nat := fld (wordAt b 8) 63 32
def mSubject (b : Bytes) : Nat := fld (wordAt b 8) 31 16
def mCode (b : Bytes) : Nat := fld (wordAt b 8) 15 0
def mStep (b : Bytes) : Nat := fld (wordAt b 0x10) 63 16
def mBase (b : Bytes) : Nat := fld (wordAt b 0x18) 63 16
def mNent (b : Bytes) : Nat := min 23 (fld (wordAt b 0x18) 7 0)
def mEnts (b : Bytes) : List Nat := (List.range (mNent b)).map fun i => wordAt b (0x20 + 8 * i)

/-- A MAILBOX flit to a node (R340, R440). One to this module itself goes straight to its own rind: it waits at
the pseudo-port 12. -/
def sendMail (s : State) (node : Nat) (body : Bytes) : State :=
  let k : Packet := { dst := node, src := ownNode s, job := ownJob s, opc := 8, tc := 2, tag := noTag, body := body }
  if physNode s node == ownNode s then
    modPort s 12 fun q => { q with ingress := q.ingress ++ [{ pkt := k, vc := 16, tick := now s }] }
  else inject s k

/-- Nodes of COORD_CTL: active coordinator and standby (R463). -/
def activeNode (s : State) : Nat := fld s.turn.coordCtl.toNat 63 48
def standbyNode (s : State) : Nat := fld s.turn.coordCtl.toNat 47 32

/-- A message to both coordinators (R442, R443). -/
def sendBoth (s : State) (body : Bytes) : State :=
  let s := sendMail s (activeNode s) body
  if standbyNode s = activeNode s then s else sendMail s (standbyNode s) body

/-- The node ID under which this module takes part: the one whose alias it stands behind, else its own (R362, R387). -/
def logicalNode (s : State) : Nat :=
  match s.obj.members.find? fun m => physNode s m.1 == ownNode s with
  | some m => m.1
  | none => ownNode s

/-- A REPORT of a module that belongs to a job to the coordinator pair (R443): CODE 1 MISSING, 2 STALL, 3 FAULT, 4 LOST;
`ents` are map entries that go with it (R549). Its DSEQ is that of the last decision accepted here, which tells a report
from before a decision from one after it (DESIGN CHOICE, log entry 104). A REPORT FAULT sets REPLAY_REQ (R559). -/
def sendReport (s : State) (code subject step : Nat) (ents : List Nat := []) : State :=
  if s.obj.job.isNone then s
  else
    let s := if code = 3 then modTriage s fun t => { t with replayReq := true } else s
    sendBoth s (mailB 2 s.fab.epoch.toNat (fld s.turn.coordStat.toNat 63 32) subject code step 0 ents)

end Sys2Proof.Machine
end

