-- ==== Sys2Proof/Machine/Hoop.lean ====
section
/-! DEFINITION. The hoop engine: buckets and state records (R380 to R383), signals (R384 to R386), rings and
hops (R387 to R404), late and missing contributions (R405 to R410), arrivals and messages (R411, R412) and
its counters (R419). -/

namespace Sys2Proof.Machine

/-! ### Bucket entries and state records -/

/-- The hoop part changed. -/
def modHoop (s : State) (f : Hoop → Hoop) : State := { s with hoop := f s.hoop }

/-- Flags of HOOP_STAT (R418): 0 BAD_SIG, 1 FOLD, 2 RIPEN_DROP, 3 RESCALE, 4 X_OVF, 5 CNT_SAT, 6 RESEND,
7 RESIDUE_FAULT, 8 CHRONIC. -/
def hoopFlag (s : State) (n : Nat) : State := modHoop s fun h => { h with stat := h.stat ||| BitVec.ofNat 9 (2 ^ n) }

/-- Fields of HOOP_DROP: 48 STALE_GEN, 32 STALE_EPOCH, 16 STALE_STEP, 0 BAD_SIG; and of HOOP_CHK: 48 ARRIVAL,
32 LOCAL, 16 ADDER, 0 RESEAL (R419). -/
def hoopDrop (s : State) (lo : Nat) : State := modHoop s fun h => { h with drop := bump16 h.drop lo 1 }
def hoopChk (s : State) (lo n : Nat) : State := modHoop s fun h => { h with chk := bump16 h.chk lo n }

/-- Whether the engine takes signals and messages (R417). -/
def hoopOn (s : State) : Bool := bitOf s.hoop.ctl.toNat 31

/-- Address of bucket entry b and of its state record (R381, R383). -/
def bktAt (s : State) (b : Nat) : Nat := s.hoop.bktBase.toNat + 64 * b
def recAt (s : State) (b : Nat) : Nat := s.hoop.stateBase.toNat + 64 * b

/-- A bucket entry (R381). -/
structure Bucket where
  blocks : Nat
  gen : Nat
  sigs : Nat
  sgrp : Nat
  headroom : Nat
  ripenMax : Nat
  stripe : Bool
  thin : Bool
  isOpen : Bool
  fold : Bool
  src : Nat
  dst : Nat
  exp : Nat
  err : Nat
  ripe : Nat
  fred : Nat
  fscl : Nat
  hold : Nat
  deriving DecidableEq, Repr

/-- The entry in the 64 bytes of R381. -/
def bucketIn (bs : Bytes) : Bucket :=
  let w := wordAt bs 0
  let a (off : Nat) : Nat := fld (wordAt bs off) 47 0
  let f := wordAt bs 0x30
  let h := fld (wordAt bs 0x38) 31 0
  { blocks := fld w 63 40 + 1, gen := fld w 39 32, sigs := fld w 31 24 + 1, sgrp := fld w 23 19,
    headroom := fld w 18 15, ripenMax := fld w 14 13, stripe := bitOf w 12, thin := bitOf w 11, isOpen := bitOf w 10,
    fold := fld w 9 8 == 1, src := a 8, dst := a 0x10, exp := a 0x18, err := a 0x20, ripe := a 0x28,
    fred := fld f 55 32, fscl := fld f 23 0, hold := if h = 0 then 200000 else h }

/-- Bucket b as its entry stands. -/
def bucketOf (s : State) (b : Nat) : Bucket := bucketIn (hubBytes s (bktAt s b) 64)

/-- Whether b names an open slot below HOOP_BKT_CNT of a generation. -/
def slotOpen (s : State) (b gen : Nat) : Bool :=
  decide (b < s.hoop.bktCnt.toNat) && (bucketOf s b).isOpen && (bucketOf s b).gen == gen

/-- A field of a state record, and the record with a field of `n` bytes replaced. -/
def recNum (s : State) (b off n : Nat) : Nat := hubNum s (recAt s b + off) n
def recPut (s : State) (b off n v : Nat) : State := memWrite s (recAt s b + off) (leBytes n v)

/-- CUR_STEP and FRESH. -/
def curStep (s : State) (b : Nat) : Nat := recNum s b 0 6
def isFresh (s : State) (b : Nat) : Bool := bitOf (recNum s b 6 1) 0

/-- CUR_STEP set, FRESH cleared. -/
def putStep (s : State) (b step : Nat) : State := recPut s b 0 7 (step % 2 ^ 48)

/-- LAST (R383): 1 OK, 2 FOLDED, 3 RESIDUE_FAULT, 4 REPLAYED, 5 MISSING. -/
def putLast (s : State) (b v : Nat) : State := recPut s b 7 1 v

/-- Signals counted: kind 0 SCALE_READY, 1 BUCKET_READY; `next` for CUR_STEP + 1. -/
def sigOff (kind : Nat) (next : Bool) : Nat := 0x20 + 2 * kind + 4 * next.toNat
def sigCount (s : State) (b kind : Nat) (next : Bool) : Nat := recNum s b (sigOff kind next) 2
def countSig (s : State) (b kind : Nat) (next : Bool) : State :=
  recPut s b (sigOff kind next) 2 (satAdd 16 (sigCount s b kind next) 1)

/-- Ripening slot k: V and origin step. -/
def ripeWord (s : State) (b k : Nat) : Nat := recNum s b (0x28 + 8 * k) 8
def ripeFull (s : State) (b k : Nat) : Bool := bitOf (ripeWord s b k) 63
def ripeOrig (s : State) (b k : Nat) : Nat := fld (ripeWord s b k) 47 0
def ripePut (s : State) (b k : Nat) (orig : Option Nat) : State :=
  recPut s b (0x28 + 8 * k) 8 (match orig with | some o => 2 ^ 63 + o | none => 0)

/-- The local contribution of a kind is ready (R385). -/
def isReady (s : State) (b kind : Nat) : Bool := decide ((bucketOf s b).sigs ≤ sigCount s b kind false)

/-! ### Steps in progress -/

/-- The step in progress of bucket b. -/
def bstep? (s : State) (b : Nat) : Option BStep := s.hoop.steps.find? fun x => x.b == b

/-- The step in progress changed. -/
def modStep (s : State) (b : Nat) (f : BStep → BStep) : State :=
  modHoop s fun h => { h with steps := h.steps.map fun x => if x.b = b then f x else x }

/-- A fence of the bucket signalled: kind 0 FENCE_SCL, 1 FENCE_RED; its count is raised first (R386). -/
def hoopFence (s : State) (b kind : Nat) (st : Status) : State :=
  let off := 8 + 8 * kind
  let v := (recNum s b off 8 + 1) % 2 ^ 64
  let e := bucketOf s b
  let s := recPut s b off 8 v
  let s := modStep s b fun x => if kind = 0 then { x with scl := true } else { x with red := true }
  signalFence s (if kind = 0 then e.fscl else e.fred) v st

/-- The fences that a step in progress has not signalled yet; a thinned bucket never signals FENCE_SCL (R386). -/
def restFences (s : State) (b : Nat) (st : Status) : State :=
  match bstep? s b with
  | none => s
  | some x =>
    let s := if x.scl || (bucketOf s b).thin then s else hoopFence s b 0 st
    if x.red then s else hoopFence s b 1 st

/-- DETAIL0 of a hoop event: bucket and generation, placed as in HOOP_SIG (R384, R557). -/
def hoopDetail (s : State) (b : Nat) : Dword := BitVec.ofNat 64 (putFld (bucketOf s b).gen 8 16 + putFld b 16 0)

/-- Key of a check of a block and step in the list of first failures (R400): step, check, bucket, phase or kind, stage,
index. -/
def failKey (step chk b ph d j : Nat) : Nat := ((((step * 64 + chk) * 2 ^ 16 + b) * 8 + ph) * 4 + d) * 2 ^ 24 + j

/-- Step and bucket of such a key. -/
def failStep (key : Nat) : Nat := key / 2 ^ 51
def failBkt (key : Nat) : Nat := key / 2 ^ 29 % 2 ^ 16

/-- Mark of a step that has failed before it opens here. -/
def stopKey (step b : Nat) : Nat := failKey step 63 b 0 0 0

/-- RESIDUE_FAULT of a step of a bucket: it stops, and fault triage hears of it (R400). A step that is already complete here
has no fence left to signal; one that has still to open here opens stopped. -/
def residueFault (s : State) (b step : Nat) : State :=
  let event (s : State) : State := attn s { cls := 8, source := 0x20, unit := b, d0 := hoopDetail s b }
  match (bstep? s b).filter fun x => x.step == step with
  | none =>
    let s := if step = curStep s b then s else modHoop s fun h => { h with fails := kput h.fails (stopKey step b) }
    event (putLast (hoopFlag s 7) b 3)
  | some x =>
    if x.stop then s
    else
      let s := putLast (hoopFlag (modStep s b fun x => { x with stop := true }) 7) b 3
      event (restFences s b .residueFault)

/-- `n` failures of a check of a block and step: counted, and RESIDUE_FAULT on the second one (R400). The
Bool says that the work goes on. -/
def checkFails (s : State) (lo b step ph d j n : Nat) : State × Bool :=
  if n = 0 then (s, true)
  else
    let key := failKey step lo b ph d j
    let before := s.hoop.fails.contains key
    let s := hoopChk s lo (min n 2)
    if 2 ≤ n || before then (residueFault s b step, false)
    else (modHoop s fun h => { h with fails := h.fails ++ [key] }, true)

/-- MEM_UE for the first poisoned unit that some reads of the engine meet (R549). -/
def hoopPoison (s : State) (xs : List (Nat × Nat)) : State :=
  match firstBad s xs with
  | some u => poisonMet s (some u) 0 none
  | none => s

/-! ### Rings (R387, R388) -/

/-- Extent, own position and neighbours in a dimension. -/
def gridN (s : State) (d : Nat) : Nat := fld s.hoop.grid.toNat (5 * d + 4) (5 * d) + 1
def gridPos (s : State) (d : Nat) : Nat := fld s.hoop.grid.toNat (36 + 5 * d) (32 + 5 * d)
def nodeAt (w : Dword) (d : Nat) : Nat := fld w.toNat (16 * d + 15) (16 * d)

/-- Stages with an extent above 1, and the stages of a reduce: one hop for a grid of one member (R387). -/
def realStages (s : State) : List Nat := (List.range 3).filter fun d => decide (1 < gridN s d)
def hopStages (s : State) : List Nat := if (realStages s).isEmpty then [0] else realStages s

/-- q_d of block j. -/
def qOf (s : State) (d j : Nat) : Nat :=
  match d with | 0 => j | 1 => j / gridN s 0 | _ => j / (gridN s 0 * gridN s 1)

/-- Place of this member in the chain of block j in stage d: 0 at its start, n - 1 at the owner. -/
def chainAt (s : State) (d j : Nat) : Nat :=
  let n := gridN s d
  let o := qOf s d j % n
  let p := gridPos s d
  if j % 2 = 0 then (p + 2 * n - o - 1) % n else (o + 2 * n - 1 - p) % n

/-- Whether this member owns block j in stage d. -/
def ownsBlock (s : State) (d j : Nat) : Bool := chainAt s d j + 1 == gridN s d

/-- Whether block j takes part in stage d at this member. -/
def takesPart (s : State) (d j : Nat) : Bool :=
  (d == 0 || gridPos s 0 == j % gridN s 0) &&
  (d != 2 || gridPos s 1 == qOf s 1 j % gridN s 1)

/-- The neighbour to which block j goes in stage d, and the one from which it comes. -/
def downNode (s : State) (d j : Nat) : Nat := nodeAt (if j % 2 = 0 then s.hoop.next else s.hoop.prev) d
def upNode (s : State) (d j : Nat) : Nat := nodeAt (if j % 2 = 0 then s.hoop.prev else s.hoop.next) d

/-- Scale groups and exponent chunks of a bucket, and its items of a kind (R381, R391). -/
def groupsOf (e : Bucket) : Nat := ceilDiv e.blocks (2 ^ e.sgrp)
def itemsOf (e : Bucket) (kind : Nat) : Nat := if kind = 0 then ceilDiv (groupsOf e) 128 else e.blocks

/-! ### Messages (R412, R401) -/

/-- Fields of a REDUCE body. -/
def rBkt (b : Bytes) : Nat := fld (wordAt b 0) 63 48
def rGen (b : Bytes) : Nat := fld (wordAt b 0) 47 40
def rPhase (b : Bytes) : Nat := fld (wordAt b 0) 39 37
def rStage (b : Bytes) : Nat := fld (wordAt b 0) 36 35
def rFmt (b : Bytes) : Nat := fld (wordAt b 0) 34 33
def rEpoch (b : Bytes) : Nat := fld (wordAt b 0) 31 0
def rCount (b : Bytes) : Nat := fld (wordAt b 8) 63 48
def rStep (b : Bytes) : Nat := fld (wordAt b 8) 47 0
def rIndex (b : Bytes) : Nat := fld (wordAt b 0x10) 23 0
def rXres (b : Bytes) : Nat := fld (wordAt b 0x18) 15 0
def rLoad (b : Bytes) (n : Nat) : Bytes := sliceB b 0x40 n

/-- The first word of a body of a bucket. -/
def rHead (s : State) (b phase d fmt : Nat) : Nat :=
  putFld b 16 48 + putFld (bucketOf s b).gen 8 40 + putFld phase 3 37 + putFld d 2 35 + putFld fmt 2 33 +
    putFld s.fab.epoch.toNat 32 0

/-- A REDUCE body. -/
def rBody (w0 count step index xres : Nat) (load : Bytes) : Bytes :=
  padB 216 (wordsB [w0, putFld (min count 65535) 16 48 + putFld step 48 0, putFld index 24 0, putFld xres 16 0] ++
    List.replicate 32 0 ++ load)

/-- A REDUCE packet to a neighbour. -/
def rSend (s : State) (node : Nat) (stripe : Bool) (body : Bytes) : State :=
  inject s { dst := node, src := ownNode s, job := ownJob s, opc := 9, tc := 3, tag := noTag, stripe := stripe, body := body }

/-- Blocks that the resend buffer holds (R401). -/
def resendSize : Nat := 32768

/-- A block sent and kept in the resend buffer (R401). -/
def rSent (s : State) (node : Nat) (stripe : Bool) (body : Bytes) : State :=
  let x : Resend := { node := node, stripe := stripe, body := body, since := now s, naks := 0, touts := 0 }
  rSend (modHoop s fun h => { h with resend := h.resend ++ [x] }) node stripe body

/-- A block to be sent: sending stops while the resend buffer is full (R401). -/
def rKeep (s : State) (node : Nat) (stripe : Bool) (body : Bytes) : State :=
  if s.hoop.resend.length < resendSize && s.hoop.sendq.isEmpty then rSent s node stripe body
  else modHoop s fun h => { h with sendq := h.sendq ++ [(node, stripe, body)] }

/-- Blocks that waited for a place in the resend buffer, sent while it has one. -/
def drainSends : Nat → State → State
  | 0, s => s
  | n + 1, s =>
    match s.hoop.sendq with
    | [] => s
    | x :: rest =>
      if s.hoop.resend.length < resendSize then drainSends n (rSent (modHoop s fun h => { h with sendq := rest }) x.1 x.2.1 x.2.2)
      else s

/-- The ACK that a gather stands for (R401, R412). -/
def sendAck (s : State) (g : AckGather) : State :=
  let w0 := wordAt g.head 0
  let w0 := w0 - putFld (fld w0 39 37) 3 37 + putFld 4 3 37
  rSend s g.node g.stripe (rBody w0 0 (rStep g.head) g.first 0 (leBytes 8 g.map))

/-- A message that has passed its check covered by the ACK that gathers its 64 indices; the ACK goes out once
it covers all of them (R401). -/
def ackMsg (s : State) (node : Nat) (stripe : Bool) (total : Nat) (m : Bytes) : State :=
  let head := wordsB [wordAt m 0, rStep m]
  let first := rIndex m / 64 * 64
  let mine (g : AckGather) : Bool := g.node == node && g.head == head && g.first == first
  let g := (s.hoop.acks.find? mine).getD { node := node, stripe := stripe, head := head, first := first, map := 0 }
  let g := { g with map := g.map ||| 2 ^ (rIndex m - first) }
  let rest := s.hoop.acks.filter fun x => !mine x
  if popCount 64 g.map = min 64 (total - first) then sendAck (modHoop s fun h => { h with acks := rest }) g
  else modHoop s fun h => { h with acks := rest ++ [g] }

/-- A NAK of one index, sent at once (R401). -/
def sendNak (s : State) (node : Nat) (stripe : Bool) (m : Bytes) : State :=
  let w0 := wordAt m 0
  let w0 := w0 - putFld (rPhase m) 3 37 + putFld 5 3 37
  rSend s node stripe (rBody w0 0 (rStep m) (rIndex m) 0 (leBytes 1 (rPhase m)))

/-! ### Exponent chunks (R390, R391) -/

/-- XRES of 128 exponents. -/
def xresOf (bs : Bytes) : Nat := ((bs.zip (List.range 128)).map fun p => (p.2 + 1) * p.1.toNat).sum % dgPrime

/-- The local exponents of chunk k; 0x00 past the last group. -/
def ownChunk (s : State) (e : Bucket) (k : Nat) : Bytes :=
  (List.range 128).map fun i => if 128 * k + i < groupsOf e then rdByte s (e.exp + 2 * (128 * k + i)) else 0

/-- The agreed exponents (R391). -/
def agreedChunk (e : Bucket) (bs : Bytes) : Bytes := bs.map fun v => BitVec.ofNat 8 (min 0xFF (v.toNat + e.headroom))

/-! ### Results of hops -/

/-- FMT, XRES and payload of a result. -/
structure Item where
  fmt : Nat
  xres : Nat
  load : Bytes
  deriving DecidableEq, Repr

/-- An exponent chunk and a DG16 block as items. -/
def chunkItem (bs : Bytes) : Item := { fmt := 3, xres := xresOf bs, load := bs }
def blockItem (bs : Bytes) : Item := { fmt := 0, xres := 0, load := bs }

/-- A message of an item to the next member of its chain; phase 0 and 2 reduce, 1 and 3 gather. -/
def sendItem (s : State) (x : BStep) (phase d j count : Nat) (it : Item) : State :=
  rKeep s (downNode s d j) (bucketOf s x.b).stripe
    (rBody (rHead s x.b phase d it.fmt) count x.step j it.xres it.load)

/-- Whether a held write of a range is under way, or one would be (R140, R283, R429). -/
def rangeClear (s : State) (a n : Nat) : Bool := !writeHeld s a n && !asleep s a n && !s.turn.held.any fun h => h.meets a n

/-- Whether every write of a bucket's step is performed, and the write of its state record would be (R327). -/
def hoopClear (s : State) (b : Nat) : Bool :=
  let e := bucketOf s b
  let free (a n : Nat) : Bool := !s.turn.held.any fun h => h.meets a n
  rangeClear s (recAt s b) 64 && free e.dst (132 * e.blocks) && free e.exp (2 * groupsOf e) &&
    free e.ripe (132 * e.blocks * e.ripenMax) && (!e.thin || free e.err (256 * e.blocks))

/-- The end of the scale round signals FENCE_SCL, once its writes are performed (R327, R386). -/
def settleScl (s : State) (b : Nat) : State :=
  match bstep? s b with
  | none => s
  | some x =>
    let e := bucketOf s b
    if x.scl || x.stop || e.thin || x.sclDone.length ≠ itemsOf e 0 then s
    else if !hoopClear s b then askRoom s (recAt s b) 64
    else hoopFence s b 0 .ok

/-- An item is final at this member: agreed exponents in EXP, or the sum in DST (R386, R389, R391). -/
def putFinal (s : State) (b kind j : Nat) (it : Item) : State :=
  let e := bucketOf s b
  if kind = 1 then
    modStep (memWriteParts s (e.dst + 132 * j) (padB 132 it.load)) b fun x => { x with redDone := kput x.redDone j }
  else
    let s := (List.range 128).foldl
      (fun s i =>
        let g := 128 * j + i
        if g < groupsOf e then memWrite s (e.exp + 2 * g + 1) [it.load.getD i 0] else s) s
    settleScl (modStep s b fun x => { x with sclDone := kput x.sclDone j }) b

/-- The gather of an item from this member in some stages (R389). -/
def gatherIn (s : State) (x : BStep) (kind j count : Nat) (it : Item) (ds : List Nat) : State :=
  ds.foldl (fun s d => sendItem s x (2 * kind + 1) d j count it) s

/-- The result of a hop goes on: to the next position, to the next stage, or, from the final owner, to every
member (R388, R389, R391). -/
def hopOut (s : State) (x : BStep) (kind d j count : Nat) (it : Item) : State :=
  let e := bucketOf s x.b
  if !ownsBlock s d j then sendItem s x (2 * kind) d j count it
  else if (hopStages s).any fun d' => decide (d < d') then
    if kind = 1 then memWriteParts s (e.dst + 132 * j) (padB 132 it.load)
    else modStep s x.b fun x => { x with exps := mput x.exps j it.load }
  else
    let it := if kind = 0 then chunkItem (agreedChunk e it.load) else it
    putFinal (gatherIn s x kind j count it (realStages s).reverse) x.b kind j it

/-! ### The reduce (R392 to R398, R402 to R404) -/

/-- The rescale steps that the log record of a step names for a hop (R438, R452). -/
def loggedRescales (s : State) (x : BStep) (d j : Nat) : List (Nat × Nat) :=
  (rlogEntries s x.step).filterMap fun w =>
    if fld w.1 63 56 = 4 && fld w.1 55 40 = x.b && fld w.1 39 32 = (bucketOf s x.b).gen && fld w.1 31 30 = d &&
        fld w.2.1 23 0 = j then
      some (fld w.2.2 31 24, fld w.2.2 23 16) else none

/-- First word of a log entry of a bucket (R438). -/
def logHead (s : State) (kind b low : Nat) : Nat := putFld kind 8 56 + putFld b 16 40 + putFld (bucketOf s b).gen 8 32 + low

/-- The rescale steps of a hop: counted and flagged, logged or compared with the log (R395, R398, R452). -/
def noteRescales (s : State) (x : BStep) (d j : Nat) (r : Rescaled) : State :=
  let s := if r.ovf then hoopFlag s 4 else s
  let s := if r.steps.isEmpty then s
    else hoopFlag (modHoop s fun h => { h with rscl := BitVec.ofNat 64 (satAdd 64 h.rscl.toNat r.steps.length) }) 3
  if logged s x.step then
    if r.steps == loggedRescales s x d j then s
    else attn s { cls := 0x0E, source := 0x20, unit := x.b, d0 := hoopDetail s x.b, d1 := BitVec.ofNat 64 j }
  else
    let pos := gridPos s 0 + gridPos s 1 * 32 + gridPos s 2 * 1024
    r.steps.foldl
      (fun s p => rlogAdd s x.step (logHead s 4 x.b (putFld d 2 30)) j (putFld p.1 8 24 + putFld p.2 8 16 + pos)) s

/-- A sum brought to its end: rescaled in line and sent on; or, when it must be rescaled in assisted mode,
parked (R395, R413). -/
def hopEnd (s : State) (x : BStep) (d j count : Nat) (h : HopSum) : State :=
  if dutyMode s 2 ≠ 0 && !h.nan && !lanesFit h.lanes then
    modHoop s fun k => { k with parked := k.parked ++ [
      { b := x.b, step := x.step, stage := d, j := j, lanes := h.lanes, x := h.x, flags := h.flags, count := count }] }
  else
    let r := gFinish h
    hopOut (noteRescales s x d j r) x 1 d j count (blockItem (gBytes r.g))

/-- A block read from SRC, DST or RIPE: none where its check fails or it meets poison (R296, R393). -/
def readBlock (s : State) (a : Nat) : Option GBlock :=
  let g := gRead (hubBytes s a 132)
  if isBad s a 132 || !gOk g then none else some g

/-- The ripened contributions that join a step, in ascending origin step (R392, R408). -/
def ripeOrder (s : State) (x : BStep) : List Nat :=
  x.joined.foldl
    (fun acc k => acc.filter (fun j => decide (ripeOrig s x.b j ≤ ripeOrig s x.b k)) ++ [k] ++
      acc.filter fun j => decide (ripeOrig s x.b k < ripeOrig s x.b j)) []

/-- Addresses of this module's inputs to a hop of block j: the ripened ones and its own contribution in the
entry stage, DST after it (R388, R392). -/
def ownInputs (s : State) (e : Bucket) (x : BStep) (entry : Bool) (j : Nat) : List Nat :=
  if entry then
    (ripeOrder s x).map (fun k => e.ripe + 132 * (k * e.blocks + j)) ++ (if x.folded then [] else [e.src + 132 * j])
  else [e.dst + 132 * j]

/-- A thinned hop: every contribution thinned through the error memory, votes merged, and at the owner made
into DG16 (R402 to R404). -/
def thinHop (s : State) (x : BStep) (d j : Nat) (inc : Option Bytes) (own : List GBlock) : State :=
  let e := bucketOf s x.b
  let ea := e.err + 256 * j
  let step (acc : List Votes × List Nat) (g : GBlock) : List Votes × List Nat :=
    let r := thinBlock g acc.2
    (acc.1 ++ [r.1], r.2)
  let (vs, err) := own.foldl step ([], (List.range 64).map fun i => hubNum s (ea + 4 * i) 4)
  let s := if own.isEmpty then s else memWriteParts s ea (err.flatMap (leBytes 4))
  let count := vs.length + (match inc with | some m => rCount m | none => 0)
  let single := inc.isNone && vs.length == 1 && !ownsBlock s d j
  let part := inc.map fun m => (if rFmt m = 1 then ds1Read (rLoad m 12) else dv8Read (rLoad m 68), rCount m)
  let (v, sat) := mergeVotes part vs
  let s := if sat then hoopFlag s 5 else s
  if ownsBlock s d j then hopEnd s x d j count (votesSum v (!x.joined.isEmpty))
  else if single then
    sendItem s x 2 d j count { fmt := 1, xres := 0, load := ds1Bytes (vs.getD 0 v) }
  else sendItem s x 2 d j count { fmt := 2, xres := 0, load := dv8Bytes v }

/-- The hop of block j in stage d from an incoming partial, absent at the chain start (R392 to R400). Upsets come with
the message, or stand in the data path. -/
def redHop (s : State) (x : BStep) (d j : Nat) (inc : Option Bytes) (err : HoopErr) : State :=
  let e := bucketOf s x.b
  let entry := (hopStages s).head? == some d
  let as := ownInputs s e x entry j
  let reads := as.map (fun a => (a, 132)) ++ (if e.thin && entry && !as.isEmpty then [(e.err + 256 * j, 256)] else [])
  let bad := if (as.any fun a => !gOk (gRead (hubBytes s a 132))) || (firstBad s reads).isSome then 2 else 0
  let up := s.hoop.upset
  let s := modHoop (hoopPoison s reads) fun h => { h with upset := {} }
  let (s, ok1) := checkFails s 32 x.b x.step 2 d j (bad + err.localRead + up.localRead)
  if !ok1 then s
  else
    let (s, ok2) := checkFails s 16 x.b x.step 2 d j (err.adder + up.adder)
    if !ok2 then s
    else
      let (s, ok3) := checkFails s 0 x.b x.step 2 d j (err.reseal + up.reseal)
      if !ok3 then s
      else
        let own := as.filterMap (readBlock s)
        if e.thin && entry then thinHop s x d j inc own
        else
          let ins := (match inc with | some m => [gRead (rLoad m 132)] | none => []) ++ own
          let count := own.length + (match inc with | some m => rCount m | none => 0)
          hopEnd s x d j count (gAdd ins (entry && !x.joined.isEmpty))

/-- The hop of exponent chunk k in stage d: maximum in place of addition (R391). -/
def sclHop (s : State) (x : BStep) (d k : Nat) (inc : Option Bytes) : State :=
  let e := bucketOf s x.b
  let entry := (hopStages s).head? == some d
  let reads := if entry && !x.folded then [(e.exp + 256 * k, 2 * min 128 (groupsOf e - 128 * k))] else []
  let bad := if (firstBad s reads).isSome then 2 else 0
  let (s, ok) := checkFails (hoopPoison s reads) 32 x.b x.step 0 d k bad
  if !ok then s
  else
    let own := if !entry then mget x.exps [] k else if x.folded then List.replicate 128 0 else ownChunk s e k
    let sum := match inc with
      | some m => (List.zipWith (fun a b : Byte => if a.toNat < b.toNat then b else a) (rLoad m 128) own)
      | none => own
    let count := (if entry && x.folded then 0 else 1) + (match inc with | some m => rCount m | none => 0)
    hopOut s x 0 d k count (chunkItem sum)

/-! ### Progress of a bucket step -/

/-- The ripened contributions that join are fixed at the first hop of the entry stage; one whose age would
exceed RIPEN_MAX is dropped. In a re-run under R452 those join whose origin steps the log names, in whichever slots they
have ripened (R408, R452). -/
def beginHops (s : State) (b : Nat) : State :=
  match bstep? s b with
  | none => s
  | some x =>
    if x.begun then s
    else
      let e := bucketOf s b
      let full := (List.range 3).filter (ripeFull s b)
      let young (k : Nat) : Bool := decide (x.step - ripeOrig s b k ≤ e.ripenMax)
      let named : List Nat := (rlogEntries s x.step).filterMap fun w =>
        if fld w.1 63 56 = 3 && fld w.1 55 40 = b && fld w.1 39 32 = e.gen then some (fld w.2.1 47 0) else none
      let join := if logged s x.step then full.filter fun k => named.contains (ripeOrig s b k) else full.filter young
      let old := full.filter fun k => !young k
      let s := old.foldl (fun s k => hoopFlag (ripePut s b k none) 2) s
      let s := join.foldl (fun s k => rlogAdd s x.step (logHead s 3 b k) (ripeOrig s b k) 0) s
      modStep s b fun x => { x with begun := true, joined := join }

/-- Whether the engine may do work that sends `n` messages: it stops sending when the resend buffer is full (R401). -/
def maySendN (s : State) (n : Nat) : Bool := n == 0 || s.hoop.sendq.isEmpty

/-- The messages that a hop of an item in a stage sends. -/
def hopSends (s : State) (d j : Nat) : Nat :=
  if !ownsBlock s d j then 1 else if (hopStages s).any fun d' => decide (d < d') then 0 else (realStages s).length

/-- The stages in which a gathered item is sent on, lower stages than its own (R389). -/
def lowerStages (s : State) (d : Nat) : List Nat := ((realStages s).filter fun d' => decide (d' < d)).reverse

/-- The messages that a gathered item makes. -/
def gatherSends (s : State) (d j : Nat) : Nat :=
  (lowerStages s d).length + (if chainAt s d j + 2 = gridN s d then 0 else 1)

/-- The hops of an item from the first stage that it has not passed, as far as contributions, partials and the
resend buffer allow (R385, R388, R401). -/
def hopItem : List Nat → State → Nat → Nat → Nat → HoopErr → State
  | [], s, _, _, _, _ => s
  | d :: ds, s, b, kind, j, err =>
    match bstep? s b with
    | none => s
    | some x =>
      if x.stop then s
      else if x.hops.contains (kind, d, j) then
        if s.hoop.parked.any fun p => p.b == b && p.stage == d && p.j == j && kind == 1 then s
        else hopItem ds s b kind j err
      else if !takesPart s d j || !maySendN s (hopSends s d j) then s
      else
        let entry := (hopStages s).head? == some d
        let mine (m : Nat × Bytes) : Bool :=
          rPhase m.2 == 2 * kind && rStage m.2 == d && rIndex m.2 == j
        let inc := x.wait.find? mine
        if (entry && !isReady s b kind && !x.folded) || (chainAt s d j ≠ 0 && inc.isNone) then s
        else
          let s := if kind = 1 && entry then beginHops s b else s
          let s := modStep s b fun x =>
            { x with hops := x.hops ++ [(kind, d, j)], since := now s, wait := x.wait.filter fun m => !mine m }
          match bstep? s b with
          | none => s
          | some x =>
            let inc := if chainAt s d j = 0 then none else inc.map Prod.snd
            let s := if kind = 0 then sclHop s x d j inc else redHop s x d j inc err
            hopItem ds s b kind j err

/-- Every item of a kind taken on from this module's own contribution. -/
def advanceAll (s : State) (b kind : Nat) : State :=
  (List.range (itemsOf (bucketOf s b) kind)).foldl (fun s j => hopItem (hopStages s) s b kind j {}) s

/-- The hold window of R405: it runs while a message of another member waits for a contribution that is not
ready; none runs in a re-run under R452. -/
def settleWindow (s : State) (b : Nat) : State :=
  match bstep? s b with
  | none => s
  | some x =>
    let waits := x.wait.any fun m => !isReady s b (rPhase m.2 / 2)
    if x.stop || x.folded || logged s x.step || !waits then modStep s b fun x => { x with window := none }
    else modStep s b fun x => { x with window := some (x.window.getD (now s)) }

/-- A gathered item written and forwarded; the owner of lower stages sends it on in those (R389). -/
def gatherMsg (s : State) (x : BStep) (m : Bytes) : State :=
  let kind := rPhase m / 2
  let d := rStage m
  let j := rIndex m
  let it : Item := { fmt := rFmt m, xres := rXres m, load := rLoad m (if kind = 0 then 128 else 132) }
  let lower := lowerStages s d
  let s := if chainAt s d j + 2 = gridN s d then s else sendItem s x (2 * kind + 1) d j (rCount m) it
  putFinal (gatherIn s x kind j (rCount m) it lower) x.b kind j it

/-- The gathered items that waited for room in the resend buffer. -/
def drainGather (s : State) (b : Nat) : State :=
  match bstep? s b with
  | none => s
  | some x =>
    x.wait.foldl
      (fun s m =>
        if rPhase m.2 % 2 = 1 && maySendN s (gatherSends s (rStage m.2) (rIndex m.2)) then
          match bstep? s b with
          | some x => gatherMsg (modStep s b fun x => { x with wait := x.wait.erase m, since := now s }) x m.2
          | none => s
        else s) s

/-- A step looked at after a signal, an arrival, an acknowledgement or a fold. -/
def settleStep (s : State) (b : Nat) : State :=
  let s := drainGather s b
  let s := if (bucketOf s b).thin then s else advanceAll (settleScl s b) b 0
  settleWindow (advanceAll s b 1) b

/-- Every step in progress looked at. -/
def settleSteps (s : State) : State := s.hoop.steps.foldl (fun s x => settleStep s x.b) s

/-! ### Arrivals (R393, R400, R411) -/

/-- Whether a message fits its bucket: stage in use, index in range, format of its phase (R411, R412). -/
def msgFits (s : State) (m : Bytes) : Bool :=
  let e := bucketOf s (rBkt m)
  let kind := rPhase m / 2
  let entry := (hopStages s).head? == some (rStage m)
  let fmtOk :=
    if kind = 0 then rFmt m == 3 && !e.thin
    else if e.thin && entry && rPhase m == 2 then rFmt m == 1 || rFmt m == 2 else rFmt m == 0
  (realStages s).contains (rStage m) && decide (rIndex m < itemsOf e kind) && fmtOk

/-- The arrival check (R393). -/
def arrivalOk (m : Bytes) : Bool :=
  match rFmt m with
  | 0 => gOk (gRead (rLoad m 132))
  | 1 => votesOk (ds1Read (rLoad m 12))
  | 2 => votesOk (dv8Read (rLoad m 68))
  | _ => rXres m == xresOf (rLoad m 128)

/-- The oldest resend entry of an ACK or NAK: the node that stands for the neighbour (R362), the same bucket step, stage and
index, and the phase that a NAK names or the format of an ACK (R401). -/
def resendOf (s : State) (node : Nat) (m : Bytes) (j : Nat) (phase : Option Nat) : Option Resend :=
  s.hoop.resend.find? fun r =>
    physNode s r.node == node && rBkt r.body == rBkt m && rGen r.body == rGen m && rEpoch r.body == rEpoch m &&
      rStep r.body == rStep m && rStage r.body == rStage m && rIndex r.body == j &&
      (match phase with | some p => rPhase r.body == p | none => rFmt r.body == rFmt m)

/-- Entries of the resend buffer that an ACK covers are dropped. -/
def takeAck (s : State) (node : Nat) (m : Bytes) : State :=
  let map := leVal (rLoad m 8)
  let s := (bitsOf 64 map).foldl
    (fun s i =>
      match resendOf s node m (rIndex m + i) none with
      | some r => modHoop s fun h => { h with resend := h.resend.erase r }
      | none => s) s
  settleSteps (drainSends s.hoop.sendq.length s)

/-- A block sent again and flagged (R401). -/
def sendAgain (s : State) (r r' : Resend) : State :=
  let swap (x : Resend) : Resend := if x = r then { r' with since := now s } else x
  rSend (hoopFlag (modHoop s fun h => { h with resend := h.resend.map swap }) 6) r.node r.stripe r.body

/-- A NAK: resent once, RESIDUE_FAULT on the second one (R400, R401). -/
def takeNak (s : State) (node : Nat) (m : Bytes) : State :=
  match resendOf s node m (rIndex m) (some (leVal (rLoad m 1) % 8)) with
  | none => s
  | some r => if r.naks = 0 then sendAgain s r { r with naks := 1 } else residueFault s (rBkt m) (rStep m)

/-- A failed arrival check counted for the neighbour; at the threshold it is recorded and the ports to the
neighbour retrain (R554). -/
def arrivalFailed (s : State) (node : Nat) : State :=
  let r := tally s (countKey 6 node) 1 256
  if !r.2 then r.1
  else
    let ports := (List.range 12).filter fun p => portActive r.1 p && (portOf r.1 p).nbrNode.toNat == node
    ports.foldl askRetrain (addRecord r.1 8 0x20 4 (BitVec.ofNat 64 node) 256 0)

/-- A block that has failed its arrival check: counted, and NAKed the first time (R400). -/
def badArrival (s : State) (node : Nat) (m : Bytes) : State :=
  let (s, first) := checkFails s 48 (rBkt m) (rStep m) (rPhase m) (rStage m) (rIndex m) 1
  let s := arrivalFailed s node
  if first then sendNak s node (bucketOf s (rBkt m)).stripe m else s

/-- A block checked as it arrives, and covered by an ACK where it passes (R393, R401). The Bool says that it does. -/
def admitMsg (s : State) (node : Nat) (m : Bytes) : State × Bool :=
  let e := bucketOf s (rBkt m)
  if !msgFits s m then (hoopDrop s 16, false)
  else if !arrivalOk m then (badArrival s node m, false)
  else (ackMsg s node e.stripe (itemsOf e (rPhase m / 2)) m, true)

/-- Whether two messages of a bucket carry the same item of one phase. -/
def sameItem (m : Bytes) (w : Nat × Bytes) : Bool :=
  rBkt w.2 == rBkt m && rPhase w.2 == rPhase m && rStage w.2 == rStage m && rIndex w.2 == rIndex m

/-- A message of the step in progress (R393, R400, R401). One that has been taken before is checked and acknowledged again,
and dropped. -/
def takeMsg (s : State) (node : Nat) (m : Bytes) (err : HoopErr) : State :=
  let b := rBkt m
  match rPhase m with
  | 4 => takeAck s node m
  | 5 => takeNak s node m
  | _ =>
    match bstep? s b with
    | none => (admitMsg s node m).1
    | some x =>
      if x.stop then s
      else
        let (s, ok) := admitMsg s node m
        let kind := rPhase m / 2
        let done := if rPhase m % 2 = 0 then x.hops.contains (kind, rStage m, rIndex m)
          else (if kind = 0 then x.sclDone else x.redDone).contains (rIndex m)
        if !ok || done || x.wait.any (sameItem m) then s
        else
          let s := modStep s b fun x => { x with wait := x.wait ++ [(node, m)], since := now s }
          let s := if rPhase m % 2 = 1 then drainGather s b else hopItem (hopStages s) s b kind (rIndex m) err
          settleWindow s b

/-- Whether the contribution of a kind to the next step of a bucket is ready by the signals counted for it (R385). -/
def nextReady (s : State) (b kind : Nat) : Bool := decide ((bucketOf s b).sigs ≤ sigCount s b kind true)

/-- The first tick of a hold window of the next step of a bucket: a message of it is held whose contribution is not ready
(R405). -/
def settleEarly (s : State) (b : Nat) : State :=
  let waits := s.hoop.matchB.any fun m => rBkt m.2 == b && decide (rPhase m.2 < 4) && !nextReady s b (rPhase m.2 / 2)
  modHoop s fun h => { h with early := if !waits then mdel h.early b else if (mget? h.early b).isSome then h.early else mput h.early b (now s) }

/-- A message of the step after CUR_STEP: checked and acknowledged as it arrives (R393), and held until that step opens
(R411). -/
def holdMsg (s : State) (node : Nat) (m : Bytes) : State :=
  let b := rBkt m
  let hold (s : State) : State := modHoop s fun h => { h with matchB := h.matchB ++ [(node, m)] }
  if 4 ≤ rPhase m then hold s
  else if s.hoop.fails.contains (stopKey (rStep m) b) then s
  else
    let (s, ok) := admitMsg s node m
    if !ok || s.hoop.matchB.any (sameItem m) then s else settleEarly (hold s) b

/-- `s` after step, the step before a FRESH bucket's first one counted as complete (R385). -/
def unfresh (s : State) (b step : Nat) : State := if isFresh s b then putStep s b (subMod 48 step 1) else s

/-- A REDUCE message at the head of a virtual channel (R354, R411, R412). In the control class, which reaches the
coordinator mailboxes alone (R33), it is answered with ADDRESS_FAULT; from a member in another class than the reduction
class with DESC_INVALID (DESIGN CHOICE, log entry 106). It stays there, and so does its credit, while the
engine is off or the match buffer is full (R411, R417). -/
def reduceMsg (s : State) (p vc : Nat) (err : HoopErr) (mine : Bytes → Bool) : State :=
  match homeHead s p vc with
  | none => s
  | some k =>
    let m := k.body
    if k.opc ≠ 9 || !mine m then s
    else if k.tc = 2 then respondErr (takeHead s p vc) k .addressFault
    else if !admitted s k then refuseReq (takeHead s p vc) k
    else if k.tc ≠ 3 then respondErr (takeHead s p vc) k .descInvalid
    else if !hoopOn s || 4096 ≤ s.hoop.matchB.length then s
    else
      let b := rBkt m
      if 5 < rPhase m || rStage m = 3 then hoopDrop (takeHead s p vc) 16
      else if rEpoch m ≠ s.fab.epoch.toNat then hoopDrop (takeHead s p vc) 32
      else if !slotOpen s b (rGen m) then hoopDrop (takeHead s p vc) 48
      else
        let s := unfresh s b (rStep m)
        let ahead := subMod 48 (rStep m) (curStep s b)
        if ahead = 0 then takeMsg (takeHead s p vc) k.src m err
        else if ahead = 1 then holdMsg (takeHead s p vc) k.src m
        else hoopDrop (takeHead s p vc) 16

/-- REDUCE_SCALE_RS (R388, R391); a body with a reserved PHASE is taken here too. -/
def execReduceScaleRs (p vc : Nat) (s : State) : Res := onHub s <|
  onUnit 12 p (.next (reduceMsg s p vc {} fun m => rPhase m == 0 || decide (5 < rPhase m)))
/-- REDUCE_SCALE_AG (R389, R391). -/
def execReduceScaleAg (p vc : Nat) (s : State) : Res := onHub s <| onUnit 12 p (.next (reduceMsg s p vc {} fun m => rPhase m == 1))
/-- REDUCE_RED_RS (R388, R392 to R398). -/
def execReduceRedRs (p vc : Nat) (e : HoopErr) (s : State) : Res := onHub s <|
  onUnit 12 p (.next (reduceMsg s p vc e fun m => rPhase m == 2))
/-- REDUCE_RED_AG (R389). -/
def execReduceRedAg (p vc : Nat) (s : State) : Res := onHub s <| onUnit 12 p (.next (reduceMsg s p vc {} fun m => rPhase m == 3))
/-- REDUCE_ACK (R401). -/
def execReduceAck (p vc : Nat) (s : State) : Res := onHub s <| onUnit 12 p (.next (reduceMsg s p vc {} fun m => rPhase m == 4))
/-- REDUCE_NAK (R400, R401). -/
def execReduceNak (p vc : Nat) (s : State) : Res := onHub s <| onUnit 12 p (.next (reduceMsg s p vc {} fun m => rPhase m == 5))

/-- REDUCE_ACK_TIMER (R401): 256 hub cycles have passed since the first index that ACK gather k covers. -/
def execReduceAckTimer (k : Nat) (s : State) : Res := onHub s <|
  .next (
    match s.hoop.acks[k]? with
    | none => s
    | some g => sendAck (modHoop s fun h => { h with acks := h.acks.eraseIdx k }) g)

/-- Phase and stage of the message for which item j of a step waits: its partial in the first stage that it has not passed,
or its gather in the first stage whose owner is another member (R388, R389). -/
def awaited (s : State) (x : BStep) (kind j : Nat) : Option (Nat × Nat) :=
  match (realStages s).find? fun d => takesPart s d j && !x.hops.contains (kind, d, j) with
  | some d => some (2 * kind, d)
  | none => ((realStages s).find? fun d => !ownsBlock s d j).map fun d => (2 * kind + 1, d)

/-- The member upstream of the oldest waiting block of a step (R408). -/
def stallNode (s : State) (x : BStep) : Nat :=
  let e := bucketOf s x.b
  let find (kind : Nat) (done : List Nat) : Option (Nat × Nat) :=
    (findBelow (itemsOf e kind) fun j => !done.contains j).map fun j => (kind, j)
  match (if e.thin then none else find 0 x.sclDone).orElse fun _ => find 1 x.redDone with
  | none => logicalNode s
  | some (kind, j) =>
    match awaited s x kind j with
    | some (_, d) => upNode s d j
    | none => logicalNode s

/-- The first item of a kind of a step that waits for a message of a node, as the message that would carry it. -/
def missingFrom (s : State) (node : Nat) (x : BStep) (kind : Nat) : Option Bytes :=
  let e := bucketOf s x.b
  let fmt (ph d : Nat) : Nat :=
    if kind = 0 then 3 else if e.thin && ph = 2 && (hopStages s).head? = some d then 2 else 0
  (List.range (itemsOf e kind)).findSome? fun j =>
    match awaited s x kind j with
    | none => none
    | some (ph, d) =>
      let m := rBody (rHead s x.b ph d (fmt ph d)) 0 x.step j 0 []
      let here := (if ph % 2 = 0 then chainAt s d j == 0 else (if kind = 0 then x.sclDone else x.redDone).contains j) ||
        x.wait.any (sameItem m)
      if here || physNode s (upNode s d j) ≠ node then none else some m

/-- An error response of a node in place of a REDUCE block: a failed arrival check (R552). The packet names no block: it
stands for the first item that a step in progress awaits from that node (DESIGN CHOICE, log entry 130); where none is, the
response answers nothing (R366). -/
def hoopErrorRsp (s : State) (node : Nat) : State :=
  let find (x : BStep) : Option Bytes :=
    if x.stop then none
    else ((if (bucketOf s x.b).thin then none else missingFrom s node x 0).orElse fun _ => missingFrom s node x 1)
  match s.hoop.steps.findSome? find with
  | some m => badArrival s node m
  | none => countStale s

/-- ERROR_RSP (R365): to the agent of its tag; one to a REDUCE, which has none, to the hoop engine (R552). -/
def execErrorRsp (p vc : Nat) (s : State) : Res := onHub s <|
  onUnit 12 p (.next (
    match homeHead s p vc with
    | none => s
    | some k =>
      if k.opc ≠ 7 then s
      else if k.tag = noTag then hoopErrorRsp (takeHead s p vc) k.src
      else match liveTag s k.tag with
        | none => countStale (takeHead s p vc)
        | some _ => tagFail (takeHead s p vc) k.tag (Status.ofCode k.aux)))

/-- REDUCE_RESEND_TIMEOUT (R401): block k of the resend buffer has no ACK for RUONG_TMO. -/
def execReduceResendTimeout (k : Nat) (s : State) : Res := onHub s <|
  .next (
    match s.hoop.resend[k]? with
    | none => s
    | some r =>
      if subMod 64 (now s) r.since < s.fab.tmo.toNat then s
      else if r.touts = 0 then sendAgain s r { r with touts := 1 }
      else
        let fresh (x : Resend) : Resend := if x = r then { r with since := now s } else x
        let node := match (bstep? s (rBkt r.body)).filter fun x => x.step == rStep r.body with
          | some x => stallNode s x
          | none => r.node
        sendReport (modHoop s fun h => { h with resend := h.resend.map fresh }) 2 node (rStep r.body))

/-! ### Signals (R384, R385) -/

/-- The full step of a signal: bits 35:0 as given, within 2^35 of a base step (R385). -/
def fullStep (base low : Nat) : Nat :=
  let d := subMod 36 low (base % 2 ^ 36)
  if d < 2 ^ 35 then (base + d) % 2 ^ 48 else subMod 48 (base + d) (2 ^ 36)

/-- A store to HOOP_SIG (R385). -/
def hoopSignal (s : State) (v : Nat) : State :=
  let b := fld v 15 0
  let kind := fld v 25 24
  let drop := hoopFlag (hoopDrop s 0) 0
  if !hoopOn s then s
  else if !slotOpen s b (fld v 23 16) || 2 ≤ kind || (kind = 0 && (bucketOf s b).thin) then drop
  else
    let step := fullStep (if isFresh s b then jobStep s else curStep s b) (fld v 63 28)
    let t := unfresh s b step
    let ahead := subMod 48 step (curStep t b)
    if ahead = 1 then settleEarly (countSig t b kind true) b
    else if ahead = 0 then settleStep (countSig t b kind false) b
    else if s.hoop.folds.contains (b, step) then s
    else drop

/-- HOOP_SCALE_READY (R384): the store of a core's page; a reserved KIND is dropped here too. -/
def execHoopScaleReady (c : Nat) (v : Dword) (s : State) : Res :=
  onCore c (.next (if fld v.toNat 25 24 = 1 then s else hoopSignal s v.toNat))

/-- HOOP_BUCKET_READY (R384). -/
def execHoopBucketReady (c : Nat) (v : Dword) (s : State) : Res :=
  onCore c (.next (if fld v.toNat 25 24 = 1 then hoopSignal s v.toNat else s))

/-! ### Steps begin and end (R385, R386, R413) -/

/-- Whether a signal or an arrival for CUR_STEP + 1 is held. -/
def nextHeld (s : State) (b : Nat) : Bool :=
  sigCount s b 0 true + sigCount s b 1 true != 0 || s.hoop.matchB.any fun m => rBkt m.2 == b

/-- BUCKET_MATCH_LOAD (R413): the match unit, or the rind in assisted mode, loads an entry that a signal or an
arrival needs. A full match unit gives up an entry without a step in progress. -/
def execBucketMatchLoad (b : Nat) (s : State) : Res := onHub s <|
  .next (
    if !slotOpen s b (bucketOf s b).gen || !nextHeld s b || s.hoop.loaded.contains b then s
    else
      let l := s.hoop.loaded
      let l := if l.length < 1024 then l
        else match l.find? fun x => (bstep? s x).isNone with
          | some x => l.erase x
          | none => l
      if 1024 ≤ l.length then s else modHoop s fun h => { h with loaded := l ++ [b] })

/-- BUCKET_STEP_OPEN (R382, R385): step CUR_STEP + 1 opens; in a re-run under R452 it is folded where the log says so. -/
def execBucketStepOpen (b : Nat) (s : State) : Res := onHub s <|
  .next (
    if !hoopOn s || !slotOpen s b (bucketOf s b).gen || isFresh s b || (bstep? s b).isSome || !nextHeld s b ||
        !s.hoop.loaded.contains b || s.hoop.closing.contains b then s
    else
      let step := (curStep s b + 1) % 2 ^ 48
      let s := putStep (recPut s b 0x20 8 (recNum s b 0x24 4)) b step
      let fold := logged s step && (rlogEntries s step).any fun w =>
        fld w.1 63 56 == 2 && fld w.1 55 40 == b && fld w.1 39 32 == (bucketOf s b).gen
      let held := s.hoop.matchB.filter fun m => rBkt m.2 == b
      let failed := s.hoop.fails.contains (stopKey step b)
      let x : BStep :=
        { b := b, step := step, folded := fold, since := now s, window := mget? s.hoop.early b, stop := failed
          wait := held.filter fun m => decide (rPhase m.2 < 4) }
      let s := modHoop s fun h =>
        { h with
          steps := h.steps ++ [x]
          matchB := h.matchB.filter fun m => rBkt m.2 != b
          early := mdel h.early b
          folds := if fold then h.folds ++ [(b, step)] else h.folds }
      let s := (held.filter fun m => decide (4 ≤ rPhase m.2)).foldl (fun s m => takeMsg s m.1 m.2 {}) s
      if failed then putLast (restFences s b .residueFault) b 3 else settleStep s b)

/-- The check of CHRONIC at a completed step (R409). -/
def chronicEnd (s : State) (step : Nat) : State :=
  let from_ := max (fld s.hoop.late.toNat 47 0) s.hoop.chronicFrom + fld s.hoop.ctl.toNat 23 16
  if from_ ≤ step then modHoop s fun h => { h with stat := h.stat &&& ~~~BitVec.ofNat 9 256 } else s

/-- BUCKET_STEP_COMPLETE (R386): every block of DST holds the final sum, and a folded contribution is copied
or dropped. -/
def execBucketStepComplete (b : Nat) (s : State) : Res := onHub s <|
  .next (
    match bstep? s b with
    | none => s
    | some x =>
      if x.stop || x.redDone.length < (bucketOf s b).blocks || (x.folded && !x.lateDone) then s
      else if !hoopClear s b then askRoom s (recAt s b) 64
      else
        let s := x.joined.foldl (fun s k => ripePut s b k none) s
        let s := putLast (hoopFence s b 1 .ok) b (if x.folded then 2 else 1)
        let s := chronicEnd s x.step
        modHoop s fun h =>
          { h with
            steps := h.steps.filter fun y => y.b ≠ b
            fails := h.fails.filter fun k => failBkt k ≠ b || x.step < failStep k
            loaded := if dutyMode s 1 = 0 then h.loaded else h.loaded.erase b })

/-- RESCALE_ASSIST_RETURN (R413): the rind returns parked block k. -/
def execRescaleAssistReturn (k : Nat) (s : State) : Res := onRind s <|
  .next (
    match s.hoop.parked[k]? with
    | none => s
    | some p =>
      match bstep? s p.b with
      | none => s
      | some x =>
        if !maySendN s (hopSends s p.stage p.j) then s
        else
          let s := modHoop s fun h => { h with parked := h.parked.eraseIdx k }
          let r := gFinish { lanes := p.lanes, x := p.x, flags := p.flags, nan := false }
          let s := hopOut (noteRescales s x p.stage p.j r) x 1 p.stage p.j p.count (blockItem (gBytes r.g))
          hopItem (hopStages s) s p.b 1 p.j {})

/-! ### Late and missing contributions (R405 to R409) -/

/-- LATE_STEP and LATE_RUN at an expiry under FOLD (R409). -/
def noteLate (s : State) (step : Nat) : State :=
  let ls := fld s.hoop.late.toNat 47 0
  let run := fld s.hoop.late.toNat 63 56
  let run := if step = ls then run else if step = ls + 1 then satAdd 8 run 1 else 1
  let s := modHoop s fun h => { h with late := BitVec.ofNat 64 (putFld run 8 56 + putFld step 48 0) }
  if 4 ≤ run then hoopFlag s 8 else s

/-- HOLD_WINDOW_EXPIRY (R405 to R407, R409). -/
def execHoldWindowExpiry (b : Nat) (s : State) : Res := onHub s <|
  .next (
    match bstep? s b with
    | none => s
    | some x =>
      match x.window with
      | none => s
      | some t =>
        let e := bucketOf s b
        if subMod 64 (now s) t < e.hold then s
        else
          let chronic := bitOf s.hoop.stat.toNat 8
          let s := if e.fold then noteLate s x.step else s
          let s := modHoop s fun h => { h with chronicFrom := x.step, expired := kput h.expired x.step }
          if e.fold && !chronic then
            let s := modStep (putLast (hoopFlag s 1) b 2) b fun x => { x with folded := true, window := none }
            let s := modHoop s fun h => { h with folds := h.folds ++ [(b, x.step)] }
            settleStep (rlogAdd s x.step (logHead s 2 b 0) 0 0) b
          else
            let s := putLast (modStep s b fun x => { x with stop := true, window := none }) b 5
            sendReport s 1 (logicalNode s) x.step)

/-- Whether every hop of the entry stage of a step is done, so that the slots of the contributions that have joined it are
free again. -/
def joinedRead (s : State) (x : BStep) : Bool :=
  match (hopStages s).head? with
  | none => false
  | some d => (List.range (bucketOf s x.b).blocks).all fun j => !takesPart s d j || x.hops.contains (1, d, j)

/-- The blocks of a late contribution read for their copy: each is checked before use, read again after a first failure, and
fails on the second one (R393, R400, R552). The Bool says that the copy goes on. -/
def ripenReads (s : State) (x : BStep) : State × Bool :=
  let e := bucketOf s x.b
  let reads := (List.range e.blocks).map fun j => (e.src + 132 * j, 132)
  let up := s.hoop.upset.localRead
  let s := modHoop (hoopPoison s reads) fun h => { h with upset := { h.upset with localRead := 0 } }
  (List.range e.blocks).foldl
    (fun (r : State × Bool) j =>
      if !r.2 then r
      else checkFails r.1 32 x.b x.step 2 3 j ((if (readBlock r.1 (e.src + 132 * j)).isNone then 2 else 0) + (if j = 0 then up else 0)))
    (s, true)

/-- RIPEN_COPY (R407, R408): the late contribution of a folded step goes to a free ripening slot, waits for one that its
step has still to read, or is dropped. -/
def execRipenCopy (b : Nat) (s : State) : Res := onHub s <|
  .next (
    match bstep? s b with
    | none => s
    | some x =>
      let e := bucketOf s b
      if x.stop || !x.folded || x.lateDone || !isReady s b 1 then s
      else
        let done (s : State) : State := modStep s b fun x => { x with lateDone := true }
        match findBelow e.ripenMax fun k => !ripeFull s b k || (x.joined.contains k && joinedRead s x) with
        | none => if e.ripenMax ≠ 0 && (!x.begun || x.joined.any fun k => decide (k < e.ripenMax)) then s else done (hoopFlag s 2)
        | some k =>
          let (s, ok) := ripenReads s x
          if !ok then s
          else
            let s := (List.range e.blocks).foldl
              (fun s j => memWriteParts s (e.ripe + 132 * (k * e.blocks + j)) (hubBytes s (e.src + 132 * j) 132)) s
            let s := modStep s b fun x => { x with joined := x.joined.erase k }
            done (ripePut s b k (some x.step)))

/-- Whether a step waits for others alone: this module's contribution to the round that is not complete is ready (R408). -/
def ownReady (s : State) (x : BStep) : Bool :=
  let e := bucketOf s x.b
  isReady s x.b 1 || (!e.thin && isReady s x.b 0 && decide (x.sclDone.length < itemsOf e 0))

/-- HOOP_STALL_EXPIRY (R408): a step with its own contribution ready has had nothing arrive for HOOP_STALL. -/
def execHoopStallExpiry (b : Nat) (s : State) : Res := onHub s <|
  .next (
    match bstep? s b with
    | none => s
    | some x =>
      if x.stop || !ownReady s x || subMod 64 (now s) x.since < s.hoop.stall.toNat then s
      else sendReport (modStep s b fun x => { x with since := now s }) 2 (stallNode s x) x.step)

/-! ### Replays and reads (R410, R419) -/

/-- Every bucket step in progress abandoned: its open fences are signalled REPLAYED (R410, R420). -/
def hoopAbandon (s : State) : State :=
  let s := s.hoop.steps.foldl (fun s x => putLast (restFences s x.b .replayed) x.b 4) s
  modHoop s fun h => { h with steps := [], matchB := [], resend := [], sendq := [], early := [], acks := [], fails := [], parked := [] }

/-- READ_HOOP_DROP (R419). -/
def execReadHoopDrop (s : State) : Res := .next (readReg (modHoop s fun h => { h with drop := 0 }) s.hoop.drop)
/-- READ_HOOP_CHK (R419). -/
def execReadHoopChk (s : State) : Res := .next (readReg (modHoop s fun h => { h with chk := 0 }) s.hoop.chk)
/-- READ_HOOP_RSCL (R419). -/
def execReadHoopRscl (s : State) : Res := .next (readReg (modHoop s fun h => { h with rscl := 0 }) s.hoop.rscl)

end Sys2Proof.Machine
end

