-- ==== Sys2Proof/Machine/Turning.lean ====
section
/-! DEFINITION. Turning points and phase records (R425, R427, R431), the turning's copy and its mirror (R432, R435),
segment replays (R459), spare cores (R453) and the restore of a turning (R451). -/

namespace Sys2Proof.Machine

/-! ### Turning points -/

/-- Ticks of core c in phases FORWARD to TURNING of a step (R425). -/
def coreTicks (k : Core) (step : Nat) : List Nat :=
  let m := match k.phase.cur with
    | some (c, _) => if c = step then k.phase.ticks else mget k.phase.prev [] step
    | none => mget k.phase.prev [] step
  (List.range 6).map fun i => (mget m 0 (i + 1)).toNat

/-- The phase record of a step (R425): its first 64 bytes and six counts per core. -/
def phaseRecord (s : State) (step : Nat) : Bytes :=
  let late := s.hoop.expired.contains step
  let chronic := bitOf s.hoop.stat.toNat 8
  padB 64 (wordsB [putFld step 48 16 + putBit late 2 + putBit chronic 1 + 1, s.fab.epoch.toNat,
    (mget s.turn.hubReduce 0 step).toNat + s.turn.hubTurning.toNat * 2 ^ 32]) ++
  (List.range 256).flatMap fun c => (coreTicks (coreOf s c) step).flatMap (leBytes 4)

/-- Address of the phase record of a step. -/
def phaseAt (s : State) (step : Nat) : Nat := fld s.turn.phaseRing.toNat 47 19 * 2 ^ 19 + step % 64 * 8192

/-- The steps whose FORWARD marks every core has performed: none before every core has marked (R427). -/
def allForward (s : State) : Option Nat :=
  (List.range 256).foldl
    (fun m c =>
      match m, (coreOf s c).phase.fwd with
      | some a, some f => some (min a f)
      | _, _ => none) ((coreOf s 0).phase.fwd)

/-- Whether every bucket step up to a step is complete at this module (R386, R427). -/
def bucketsDone (s : State) (step : Nat) : Bool :=
  (s.hoop.steps.all fun x => decide (step < x.step)) &&
  (List.range s.hoop.bktCnt.toNat).all fun b =>
    !(bucketOf s b).isOpen || isFresh s b || decide (step ≤ curStep s b)

/-- The step whose turning point is the next one, once its conditions hold (R427). -/
def nextPoint (s : State) : Option Nat :=
  match allForward s with
  | none => none
  | some f =>
    let step := match s.turn.lastPoint with | some l => l + 1 | none => f - 1
    if s.obj.job.isSome && step + 1 ≤ f && bucketsDone s step then some step else none

/-- The header of a slot, by offset: VALID clear, then epoch, HOOP_LATE, the digest of the region table and the culture
snapshots of the next step (R431). -/
def slotHead (s : State) (step : Nat) : List (Nat × Bytes) :=
  [(0, leBytes 8 0), (8, leBytes 8 s.fab.epoch.toNat), (0x10, leBytes 8 s.hoop.late.toNat), (0x20, tableDigest s)] ++
    (List.range 256).map fun c =>
      let x := mget (coreOf s c).phase.snaps (0, []) (step + 1)
      (0x1000 + 520 * c, snapBytes x.1 x.2)

/-- The slot that does not hold the latest complete turning (R431). -/
def freeSlot (s : State) : Nat :=
  let k := lastSlot s
  let h := rdNum s (slotBase s k) 8
  if bitOf h 0 && fld h 63 16 == lastStep s then 1 - k else k

/-- The turning of a step starts (R428, R429, R431, R434). A mirror of the slot's earlier turning that is not complete is
given up (R436). -/
def startTurn (s : State) (step : Nat) : State :=
  let k := freeSlot s
  let r : TurnRun :=
    { id := s.turn.runs, step := step, slot := k, total := granuleCount (turnRegions s), done := [], urgent := [], due := 0,
      mfail := false, todo := slotHead s step }
  let s := if s.turn.mirror.any fun m => m.slot == k then turnFlag s 13 else s
  let s := setDirty s k [] false
  let s := modTurn s fun t => { t with run := some r, runs := t.runs + 1, mirror := t.mirror.filter fun m => m.slot ≠ k }
  endTurn (slotTodo s)

/-- P_s: the phase record, COMPLETE in the log record, and the due turning (R425, R427, R437). With it the
optimizer phase of the step is over, and a due regeneration may start (R256). -/
def doPoint (s : State) (step : Nat) : State :=
  let s := memWrite s (phaseAt s step) (padB 8192 (phaseRecord s step))
  let s :=
    if rlogHas s step && !rlogComplete s step then
      memWriteNum s (rlogAt s step) 8 (hubNum s (rlogAt s step) 8 ||| 1)
    else s
  let s := modTurn s fun t => { t with lastPoint := some step, hubReduce := t.hubReduce.filter fun kv => step < kv.1, hubTurning := 0 }
  let s := modHoop s fun h => { h with expired := h.expired.filter fun e => step < e }
  let s := if turnDue s step then startTurn s step else s
  let s := { s with cores := s.cores.map fun kv => (kv.1, { kv.2 with phase :=
    { kv.2.phase with
      prev := kv.2.phase.prev.filter fun x => step < x.1
      snaps := kv.2.phase.snaps.filter fun x => step + 1 < x.1 } }) }
  let ivl := fld s.qw.ctl.toNat 15 0
  if bitOf s.qw.ctl.toNat 31 && fullService s && step % ivl == 0 then
    let first := s.qw.due.isEmpty
    let s := { s with qw := { s.qw with due := s.qw.due ++ [step], reads := qwReads s } }
    if first then modObj s fun o => { o with contend := mput o.contend 6 (now s) } else s
  else s

/-- TURNING_POINT (R427): a due point waits for the copy of an earlier turning, which sets HELD (R428). -/
def execTurningPoint (s : State) : Res := onHub s <|
  .next (
    match nextPoint s with
    | none => s
    | some step =>
      let head := slotParts s (lastSlot s)
      if !turnDue s step then doPoint s step
      else if s.turn.run.isSome then turnFlag s 11
      else if anyAsleep s head then askWakes s head
      else doPoint s step)

/-- The granules that the turning's ladles may take now, in the order of R432. -/
def granuleOrder (s : State) (r : TurnRun) : List Nat :=
  let rest := (List.range r.total).filter fun n => !r.done.contains n && !r.urgent.contains n
  (r.urgent ++ rest).take (fld s.turn.ctl.toNat 19 16 + 1)

/-- Whether a ladle can take a granule of a turning, which runs at PRIO 0b01: one is free, and no command of PRIO 0b00
that may start waits for it (R301, R432). -/
def turnLadle (s : State) : Bool :=
  (List.range 16).any (fun l => (mget? s.ladles l).isNone) && !(queuedLadles s).any fun l => lPrio l == 0 && ladleReady s l

/-- TURNING_GRANULE (R432): granule n, one of those that the turning's ladles have in hand; the header goes first, and
the turning ends once nothing of it is left. Writes that the copy held have been performed then (R429). -/
def execTurningGranule (n : Nat) (s : State) : Res := onHub s <|
  .next (
    let s := slotTodo s
    match s.turn.run with
    | none => s
    | some r =>
      let src := (granuleAddr (turnRegions s) n).getD 0
      let dst := slotGranule s r.slot n
      if !r.todo.isEmpty then s
      else if !(granuleOrder s r).contains n then settleSteps (endTurn s)
      else if !turnLadle s then s
      else if asleep s src granule || asleep s dst granule then askWake (askWake s src granule) dst granule
      else settleSteps (copyGranule s n))

/-- MIRROR_COMPLETE (R435): the mirror's VALID by a system-scope release, MIRRORED at home and, where the turning is the
latest complete one, MIRROR_OK (R462). -/
def execMirrorComplete (s : State) : Res := onHub s <|
  .next (
    match s.turn.mirror.find? fun m => m.due == 0 with
    | none => s
    | some m =>
      let h := putFld m.step 48 16 + 1
      let s := modTurn s fun t => { t with mirror := t.mirror.erase m }
      let s := request s (.mirrorValid m.step m.slot)
        { dst := twinNode s, src := 0, job := 0, opc := 1, tc := 1, rel := true, addr := mirrorBase s m.slot, agent := 0x200,
          body := writeBody 0 (leBytes 8 h) }
      let s := memWriteNum s (slotBase s m.slot) 8 (h + 2)
      if lastStep s = m.step && lastSlot s = m.slot then turnFlag s 12 else s)

/-! ### The restore of a turning (R451) -/

/-- The slot with a complete turning of a step. -/
def slotOf (s : State) (r : Nat) : Option Nat := findBelow 2 fun k => slotHolds s k r

/-- The culture of job contexts on core c taken from a snapshot, live or saved; a core that no job context has used keeps it
for the first one that comes (R451). -/
def loadSnap (s : State) (c : Nat) (x : Dword × Map Dword) : State :=
  let put (k : Core) : Core := loadCulture k x
  let k := coreOf s c
  let used := k.ctx.any (isJobCtx s) || s.obj.ctxs.any fun kv => isJobCtx s kv.1 && (mget? kv.2.saved c).isSome
  let s := if used then s else modTurn s fun t => { t with cultures := mput t.cultures c x }
  match k.ctx with
  | some i => if isJobCtx s i then setCore s c (put k) else saved s put
  | none => saved s put
where
  /-- Contexts of the job that are switched out on core c. -/
  saved (s : State) (put : Core → Core) : State :=
    let fix (kv : Nat × Context) : Nat × Context :=
      if isJobCtx s kv.1 then
        (kv.1, { kv.2 with saved := kv.2.saved.map fun x => if x.1 = c then (x.1, put x.2) else x })
      else kv
    modObj s fun o => { o with ctxs := o.ctxs.map fix }

/-- The fence counts of the buckets, which only rise, across replays too (R386). -/
def fenceCounts (s : State) : List (Nat × Bytes) :=
  ((List.range s.hoop.bktCnt.toNat).filter fun b => (bucketOf s b).isOpen).map fun b => (b, rdBytes s (recAt s b + 8) 16)

/-- The granules that a restore from slot k copies: those of its dirty bitmap, all of them in a spare (R451, R455). -/
def restoreList (s : State) (k : Nat) : List Nat :=
  let total := granuleCount (turnRegions s)
  let all := s.turn.spareWait || (if k = 0 then s.turn.full0 else s.turn.full1)
  if all then List.range total else (if k = 0 then s.turn.dirty0 else s.turn.dirty1).filter fun g => decide (g < total)

/-- The first address of slot k at which a restore would meet poison: the fault that keeps it from being made (R296,
R450). -/
def restoreBad (s : State) (k : Nat) : Option Nat :=
  (((slotBase s k, granule)) :: (restoreList s k).map fun g => (slotGranule s k g, granule)).findSome? fun x => badAt s x.1 x.2

/-- What a restore from slot k reads and writes: it waits while a channel of it is parked (R283). -/
def restoreParts (s : State) (k : Nat) : List (Nat × Nat) :=
  (slotBase s k, granule) :: (restoreList s k).flatMap fun g =>
    (slotGranule s k g, granule) :: (match granuleAddr (turnRegions s) g with | some a => [(a, granule)] | none => [])

/-- A restore of step r from slot k: granules, culture snapshots, HOOP_LATE, phase pages (R423, R451). The step in progress is
one whose record is not COMPLETE. With it the replay of later steps begins (R550). -/
def restoreStep (s : State) (r k : Nat) : State :=
  let gs := restoreList s k
  let counts := fenceCounts s
  let now_ := jobStep s
  let s := gs.foldl
    (fun s g =>
      match granuleAddr (turnRegions s) g with
      | some a => memCopy s (slotGranule s k g) a granule
      | none => s) s
  let s := markDirty s gs
  let s := counts.foldl (fun s x => memPut s (recAt s x.1 + 8) x.2) s
  let s := (List.range 256).foldl (fun s c => loadSnap s c (snapOf (rdBytes s (slotBase s k + 0x1000 + 520 * c) 520))) s
  let s := modHoop s fun h => { h with late := BitVec.ofNat 64 (rdNum s (slotBase s k + 0x10) 8) }
  let s := setDirty s k [] false
  let page (p : Phase) : Phase := { p with cur := some (r, 0), fwd := some r, ticks := [], prev := [], snaps := [], held := none }
  let s := { s with cores := (List.range 256).foldl (fun m c => mput m c { mget m {} c with phase := page (mget m {} c).phase }) s.cores }
  let s := modTurn s fun t => { t with lastPoint := some r, spareWait := false, restoring := false }
  let s := { s with triage := { s.triage with caused := s.triage.caused.map fun x => { x with replayed := x.replayed || decide (r ≤ x.step) } } }
  if r < now_ && rlogHas s now_ && !rlogComplete s now_ then memPutNum s (rlogAt s now_) 8 0 else s

/-! ### Segment replay (R459) -/

/-- The end of a segment replay: LAST and REFUSAL (R464). -/
def segEnd (s : State) (c last refusal : Nat) : State :=
  modPhase s c fun p => { p with segLast := last, segRefusal := refusal, segLeft := none }

/-- Who a replayed item is issued for: the job context of the core and its first live block. -/
def segOwner (k : Core) : Nat × Nat × (Nat × Nat) :=
  let ctx := k.ctx.getD 0
  match k.blocks.find? fun kv => kv.2.ctx == ctx with
  | some kv => (ctx, kv.1, kv.2.launch)
  | none => (ctx, 0, (0, 0))

/-- One item of a replay re-issued; none while its queue is full or groups that stalled before wait for its free entries
(R104), a status where it is refused (R459). An event of a replayed item has the offset 0, since its words come from the
segment record and not from scratchpad (R250; DESIGN CHOICE, log entry 118). -/
def segIssue (s : State) (c kind off len : Nat) : Option (Except Status State) :=
  let k := coreOf s c
  let a := segBase k + off + 8
  let (ctx, blk, l) := segOwner k
  if kind = 1 then
    if !decide (k.press.stall.length < 128 - pressDepth k) then none
    else match checkWords s c (rdWords s a 8) with
      | .ok ws => some (.ok (acceptPress s c ws 0 ctx blk l true))
      | .refuse st => some (.error st)
      | .fault st => some (.error st)
  else if !decide (k.whey.stall.length < 32 - wheyDepth k) then none
  else
    let ws := rdWords s a (len / 8)
    let cvt := bitOf (ws.getD 0 0).toNat 63
    let ch := { chainOf ws with cvt := cvt }
    match checkChain s c ch (!cvt && chainBad ch) with
    | .ok ch => some (.ok (acceptChain s c ch 0 ctx blk l true))
    | .refuse st => some (.error st)
    | .fault st => some (.error st)

/-- The items of a replay issued in recorded order while their queues have room and their records are awake (R283). -/
def segFeedN : Nat → State → Nat → State
  | 0, s, _ => s
  | fuel + 1, s, c =>
    match (coreOf s c).phase.segLeft with
    | none => s
    | some (_, _, 0) => segEnd s c 1 0
    | some (id, off, n + 1) =>
      let a := segBase (coreOf s c) + off
      let h := rdNum s a 8
      let len := fld h 31 8
      if asleep s a 8 then askWake s a 8
      else if asleep s (a + 8) len then askWake s (a + 8) len
      else match segIssue s c (fld h 7 0) off len with
      | none => s
      | some (.error st) => segEnd s c 3 st.code
      | some (.ok s) => segFeedN fuel (modPhase s c fun p => { p with segLeft := some (id, off + 8 + 64 * ceilDiv len 64, n) }) c

def segFeed (s : State) (c : Nat) : State :=
  match (coreOf s c).phase.segLeft with
  | some (_, _, n) => segFeedN (n + 1) s c
  | none => s

/-- Whether a segment replay runs (SEG_STAT.BUSY). -/
def segBusy (k : Core) : Bool :=
  k.phase.segLeft.isSome || (pressHeld k).any (·.replay) || (wheyHeld k).any (·.replay)

/-- What a store to SEG_REPLAY reads: the directory entry of the segment and the snapshot before its first item. -/
def segParts (s : State) (c id : Nat) : List (Nat × Nat) :=
  let e := segBase (coreOf s c) + 16 * id
  [(e, 16), (segBase (coreOf s c) + rdNum s e 4 - 520, 520)]

/-- A store to SEG_REPLAY; none while a replay runs on the core, or while a channel that it reads is parked (R283, R459). -/
def segReplayStore (s : State) (c : Nat) (v : Dword) : Option State :=
  let k := coreOf s c
  let id := fld v.toNat 7 0
  let e := segBase k + 16 * id
  if segBusy k || anyAsleep s (segParts s c id) then none
  else
    let s := modPhase s c fun p => { p with segLastId := id }
    if !bitOf (rdNum s (e + 8) 8) 0 then some (segEnd s c 2 0)
    else
      let off := rdNum s e 4
      let x := snapOf (rdBytes s (segBase k + off - 520) 520)
      let s := modWhey s c fun w => { w with rseed := x.1, rctr := x.2 }
      some (segFeed (modPhase s c fun p => { p with segLeft := some (id, off, rdNum s (e + 4) 4) }) c)

/-- SEG_REPLAY (R459). -/
def execSegReplay (c : Nat) (v : Dword) (s : State) : Res :=
  onCore c (.next (
    let waits := if segBusy (coreOf s c) then s else askWakes s (segParts s c (fld v.toNat 7 0))
    (segReplayStore s c v).getD waits))

/-! ### Spare cores (R453, R94) -/

/-- Whether a physical core, numbered over all vats, is bound, and whether it is under the test of a released core (R527). -/
def isBound (s : State) (phys : Nat) : Bool := (List.range 64).any fun c => physOf s (64 * (phys / 66) + c) == phys
def underTest (s : State) (phys : Nat) : Bool := s.tests.any fun t => t.2.1 == phys

/-- The lowest-numbered physical core of a vat that is neither bound nor marked failed; a released core is one only once
it has passed its test (R94, R527). -/
def spareCore (s : State) (v : Nat) : Option Nat :=
  findBelow 66 fun p => !(s.vatFail.contains (66 * v + p)) && !isBound s (66 * v + p) && !underTest s (66 * v + p)

/-- Whether a released physical core of a vat is under test. -/
def testOpen (s : State) (v : Nat) : Bool := s.tests.any fun t => t.2.1 / 66 == v

/-- A logical core bound to physical core p of its vat. -/
def bindCore (s : State) (c p : Nat) : State := { s with remap := mset s.remap (c % 64) c p }

/-- The issue and residency counts of a physical core: those of the page of the logical core that it is bound to, else those
that it has kept (R184). -/
def countsOf (s : State) (phys : Nat) : Dword × Dword :=
  match (List.range 64).find? fun c => physOf s (64 * (phys / 66) + c) == phys with
  | some c => let k := coreOf s (64 * (phys / 66) + c); (k.issueCnt, k.resCnt)
  | none => mget s.physCnt (0, 0) phys

/-- The counts of a logical core's page replaced. What its context has been charged for stays charged: the counts at its
switch-in move by the same difference (R184). -/
def putCounts (s : State) (c : Nat) (n : Dword × Dword) : State :=
  let k := coreOf s c
  let s := match k.ctx with
    | some i => modCtx s i fun x =>
        let issued := mget x.base 0 (2 * c) + n.1 - k.issueCnt
        let resident := mget x.base 0 (2 * c + 1) + n.2 - k.resCnt
        { x with base := mput (mput x.base (2 * c) issued) (2 * c + 1) resident }
    | none => s
  if k.issueCnt = n.1 && k.resCnt = n.2 then s else modCore s c fun k => { k with issueCnt := n.1, resCnt := n.2 }

/-- The counts of the cores of a vat after the bindings of `s` have become those of `t`: every page shows its physical
core's, and a physical core that is bound no more keeps its own (R184). -/
def moveCounts (s t : State) (v : Nat) : State :=
  let kept := (List.range 66).foldl
    (fun m p =>
      let phys := 66 * v + p
      if isBound t phys then mdel m phys else mset m (0, 0) phys (countsOf s phys)) s.physCnt
  (List.range 64).foldl (fun u c => putCounts u (64 * v + c) (countsOf s (physOf t (64 * v + c)))) { t with physCnt := kept }

/-- RETIRE_PEND cleared and the L1 invalid on a core that has moved, whose context goes on (R294, R453). -/
def movedCore (k : Core) : Core :=
  { k with
    l1 := []
    stopped := false
    press := { k.press with stat := k.press.stat &&& 0x3F }
    whey := { k.whey with stat := k.whey.stat &&& 0x7F } }

/-- The record of a retired core (R549). -/
def retiredEvent (s : State) (c old : Nat) : State :=
  attn s { cls := 0x11, source := 1 + c / 64, unit := c, d0 := BitVec.ofNat 64 (putFld (old % 66) 8 16 + putFld c 16 0),
           d1 := BitVec.ofNat 64 (mget s.fltCnt 0 old).toNat }

/-- CORE_REMAP (R94, R453, R527): a held mark, the queues of the core empty. Without a spare a retirement waits for the test
of a released core of its vat, which may give one (log entry 127). -/
def execCoreRemap (c : Nat) (s : State) : Res := onRind s <|
  onCore c (.next (
    let k := coreOf s c
    if k.phase.held.isNone || !remapDue k || !quiet k then s
    else
      let old := physOf s c
      let retire := retirePend k
      match spareCore s (c / 64) with
      | none =>
        if retire && testOpen s (c / 64) then s
        else if retire then
          let t := if s.triage.unfit then s else sendReport s 4 (logicalNode s) (jobStep s)
          { t with vatFail := kput t.vatFail old, triage := { t.triage with unfit := true } }
        else setCore s c { k with stopped := false, test := k.test.map fun t => (t.1, { t.2 with immediate := false }) }
      | some p =>
        let s := match k.test with
          | some (who, t) => { s with tests := s.tests ++ [(c, old, who, t)] }
          | none => s
        let s := moveCounts s (bindCore s c p) (c / 64)
        let s := modCore s c fun k => { movedCore k with test := none }
        let s := if retire then retiredEvent { s with vatFail := kput s.vatFail old } c old else s
        let s := retryMark s c
        if retire then sendReport s 3 (logicalNode s) (jobStep s) else s))

end Sys2Proof.Machine
end

