-- ==== Sys2Proof/Machine/Coord.lean ====
section
/-! DEFINITION. The coordinator pair: heartbeats, decisions, replays, takeover and spare modules (R440 to R450,
R455). -/

namespace Sys2Proof.Machine

/-! ### COORD_STAT and COORD_TIME -/

/-- A field of COORD_STAT replaced: DSEQ 63:32, ROLE 31:30, HALT 29, REPLAYING 28 (R463). -/
def coordPut (s : State) (lo w v : Nat) : State :=
  modTurn s fun t => { t with coordStat := BitVec.ofNat 64 (mergeBits t.coordStat.toNat (putFld v w lo) (putFld (2 ^ w - 1) w lo)) }

def coordDseq (s : State) : Nat := fld s.turn.coordStat.toNat 63 32
def coordRole (s : State) : Nat := fld s.turn.coordStat.toNat 31 30
def replaying (s : State) : Bool := bitOf s.turn.coordStat.toNat 28

/-- LOSS and HB in reference ticks (R442). -/
def lossTime (s : State) : Nat := fld s.turn.coordTime.toNat 63 32
def beatTime (s : State) : Nat := fld s.turn.coordTime.toNat 31 0

/-- Whether a message of a node comes from a logical node, by its own ID or that of the spare behind its alias. -/
def isFrom (s : State) (src logical : Nat) : Bool := src == logical || src == physNode s logical

/-- The module that holds the place of a node under the tables of a decision: the one behind its alias, else itself (R362,
R441, R456). -/
def placeIn (d : Decision) (n : Nat) : Nat :=
  match d.ents.find? fun e => fld e 63 48 == n with
  | some e => if bitOf e 40 then fld e 39 26 else n
  | none => n

/-- The module that holds the place of a node: by the accepted decision with a new epoch, which lists every alias, else by the
tables in force. -/
def placeOf (s : State) (n : Nat) : Nat :=
  match s.turn.accepted with
  | some d => if d.flags / 2 % 2 = 1 then placeIn d n else physNode s n
  | none => physNode s n

/-- The member that a message's source stands for, else the source itself. -/
def memberOf (s : State) (src : Nat) : Nat :=
  match s.obj.members.find? fun m => isFrom s src m.1 with
  | some m => m.1
  | none => src

/-! ### Map entries (R441) -/

/-- NODE of an entry; its row of the fault map and, with ALIAS_V, the physical node of its alias. -/
def entNode (e : Nat) : Nat := fld e 63 48
def entRow (e : Nat) : Nat := putBit (bitOf e 47) 7 + fld e 46 41
def entDead (e : Nat) : Bool := bitOf e 47
def entAlias (e : Nat) : Option Nat := if bitOf e 40 then some (fld e 39 26) else none

/-- The entry of a node with a row of the fault map and an alias. -/
def mapEnt (node row : Nat) (al : Option Nat) : Nat :=
  putFld node 16 48 + putFld (row / 128) 1 47 + putFld row 6 41 + (match al with | some p => 2 ^ 40 + putFld p 14 26 | none => 0)

/-- Alias table with the alias of a node replaced or dropped. -/
def putAlias (m : Map Word) (node : Nat) (al : Option Nat) : Map Word :=
  let mine (kv : Nat × Word) : Bool := bitOf kv.2.toNat 31 && fld kv.2.toNat 13 0 == node
  let rest := m.filter fun kv => !mine kv
  match al with
  | none => rest
  | some p =>
    let i := match m.find? mine with
      | some kv => kv.1
      | none => (findBelow 256 fun i => (mget? rest i).isNone).getD 255
    mput rest i (BitVec.ofNat 32 (2 ^ 31 + putFld p 14 16 + putFld node 14 0))

/-- The tables in force with the entries of a decision put over them. -/
def applyEnts (s : State) (es : List Nat) : Map Byte × Map Word :=
  es.foldl
    (fun t e => (mset t.1 0 (entNode e) (BitVec.ofNat 8 (entRow e)), putAlias t.2 (entNode e) (entAlias e)))
    (s.fab.fmap, s.fab.aliases)

/-- The entries of all nodes that tables list. -/
def allEnts (t : Map Byte × Map Word) : List Nat :=
  let live := t.2.filter fun kv => bitOf kv.2.toNat 31
  let nodes := (t.1.map Prod.fst ++ live.map fun kv => fld kv.2.toNat 13 0).eraseDups
  nodes.map fun n => mapEnt n (mget t.1 0 n).toNat
    ((live.find? fun kv => fld kv.2.toNat 13 0 == n).map fun kv => fld kv.2.toNat 29 16)

/-! ### Sending -/

/-- CODE bits of a DECISION: GO, NEW_EPOCH, HALT. -/
def goBit : Nat := 1
def newEpochBit : Nat := 2
def haltBit : Nat := 4

/-- The bodies of a DECISION or MIRROR, in parts of up to 23 entries (R441). -/
def decisionB (ty : Nat) (d : Decision) : List Bytes :=
  let n := max 1 (ceilDiv d.ents.length 23)
  (List.range n).map fun i =>
    let b := mailB ty d.epoch d.dseq 0 d.flags d.step d.base ((d.ents.drop (23 * i)).take 23)
    leBytes 8 (wordAt b 0 + putFld i 8 48 + putFld (n - 1) 8 40) ++ b.drop 8

/-- Several bodies sent to several nodes. -/
def sendAll (s : State) (nodes : List Nat) (bodies : List Bytes) : State :=
  nodes.foldl (fun s n => bodies.foldl (fun s b => sendMail s n b) s) s

/-- Every member that a decision does not declare dead, and the idle spares. -/
def audience (s : State) (d : Decision) : List Nat :=
  let dead := (d.ents.filter entDead).map entNode
  (s.obj.members.map Prod.fst).filter (fun n => !dead.contains n && !dead.contains (physNode s n)) ++
    s.turn.spares.filter fun n => !dead.contains n

/-- The decision in hand sent to every member (R449). -/
def sendDecision (s : State) : State :=
  match s.turn.decide with
  | none => s
  | some (d, _, _) =>
    sendAll (modTurn s fun t => { t with decide := some (d, true, true), ready := [] }) (audience s d) (decisionB 3 d)

/-- The standby that a decision leaves: the one in force unless it is dead or has become active, else the next
candidate (R445, R448). -/
def nextStandby (s : State) (active : Nat) (es : List Nat) : Option Nat :=
  let dead := (es.filter entDead).map entNode
  let ok (n : Nat) : Bool := n != active && !dead.contains n && !dead.contains (physNode s n)
  if ok (standbyNode s) then some (standbyNode s) else s.turn.cands.find? ok

/-- A decision taken in hand: mirrored to the standby first, or sent at once where there is none (R445). -/
def takeInHand (s : State) (d : Decision) : State :=
  let s := modTurn s fun t => { t with decide := some (d, false, false), ready := [], decideTick := now s, lost := false }
  match nextStandby s (logicalNode s) d.ents with
  | some n => sendAll s [n] (decisionB 4 d)
  | none => sendDecision s

/-! ### Deciding (R444) -/

/-- Whether the heartbeats of a module, and of the module that holds a member's place, are current (R442). -/
def beatsCurrent (s : State) (node : Nat) : Bool :=
  s.turn.beats.any fun b => b.node == node && decide (subMod 64 (now s) b.tick < lossTime s)
def isCurrent (s : State) (n : Nat) : Bool := beatsCurrent s (placeOf s n)

/-- Steps that a member has reported: complete turnings, and complete mirrors held for its twin. -/
def turnsOf (s : State) (n : Nat) : List Nat := (s.turn.beats.filter fun b => b.node == placeOf s n).flatMap (·.turns)
def mirrorsOf (s : State) (n : Nat) : List Nat := (s.turn.beats.filter fun b => b.node == placeOf s n).flatMap (·.mirrors)

/-- The replay base: the largest step of which every surviving member reports a complete turning and every lost
member's twin, itself not lost, a complete mirror (R444). -/
def replayBase (s : State) (lost : List Nat) : Option Nat :=
  let ok (r : Nat) : Bool := s.obj.members.all fun m =>
    if lost.contains m.1 then !lost.contains m.2.1 && (mirrorsOf s m.2.1).contains r else (turnsOf s m.1).contains r
  (s.turn.beats.flatMap (·.turns)).foldl (fun m r => if ok r && (match m with | some x => decide (x < r) | none => true) then some r else m) none

/-- The largest DSEQ seen (R446). -/
def topDseq (s : State) : Nat :=
  let d (x : Option Decision) : Nat := match x with | some y => y.dseq | none => 0
  max (coordDseq s) (max (d s.turn.accepted) (max (d s.turn.mirrored) (match s.turn.decide with | some x => x.1.dseq | none => 0)))

/-- The largest epoch seen. -/
def topEpoch (s : State) : Nat :=
  let e (x : Option Decision) : Nat := match x with | some y => y.epoch | none => 0
  max s.fab.epoch.toNat (max (e s.turn.accepted) (max (e s.turn.mirrored) (match s.turn.decide with | some x => x.1.epoch | none => 0)))

/-- Current idle spares, lowest node ID first. -/
def idleSpares (s : State) : List Nat := (s.turn.spares.filter (beatsCurrent s)).foldl kput []

/-- Map entries of some lost members, each with the next idle spare, and whether one was lacking (R444). A spare that has
rejoined is dead no more, and one that comes back to its own place needs no alias (R456). -/
def lossEnts (s : State) : List Nat → List Nat → Map Byte × Map Word → (Map Byte × Map Word) × Bool
  | [], _, t => (t, false)
  | n :: ns, spares, t =>
    let phys := physNode s n
    let kill (t : Map Byte × Map Word) (x : Nat) : Map Byte × Map Word :=
      (mset t.1 0 x ((mget t.1 0 x) ||| 0x80), t.2)
    let t := kill t phys
    match spares with
    | p :: ps =>
      lossEnts s ns ps (mset t.1 0 p (mget t.1 0 p &&& 0x7F), putAlias t.2 n (if p = n then none else some p))
    | [] => let r := lossEnts s ns [] t; (r.1, true)

/-- Entries with both ends of every dead link that they name: the node beyond a dead direction has the opposite one
dead (R375). -/
def bothEnds (s : State) (es : List Nat) : List Nat :=
  es ++ es.flatMap fun e =>
    (bitsOf 6 (fld e 46 41)).map fun dir =>
      mapEnt (stepNode s (entNode e) (dir / 2) (dir % 2 == 1)) (2 ^ (dir / 2 * 2 + (1 - dir % 2))) none

/-- A decision about lost members and reported dead links (R444, R549). -/
def decideOn (s : State) (lost links : List Nat) : State :=
  let start := (bothEnds s links).foldl (fun t e =>
    (mset t.1 0 (entNode e) (BitVec.ofNat 8 ((mget t.1 0 (entNode e)).toNat ||| entRow e)), t.2)) (s.fab.fmap, s.fab.aliases)
  let (t, short) := lossEnts s lost (idleSpares s) start
  let fresh := !lost.isEmpty || !links.isEmpty
  let base := replayBase s lost
  let halt := short || base.isNone
  let r := base.getD 0
  takeInHand s
    { epoch := if fresh then (topEpoch s + 1) % 2 ^ 32 else topEpoch s
      dseq := topDseq s + 1
      flags := (if fresh then newEpochBit else 0) + (if halt then haltBit else 0)
      step := if halt then 0 else r + 1
      base := r
      ents := if fresh then allEnts t else []
      node := ownNode s }

/-! ### Replay at a member (R449 to R451) -/

/-- The job's contexts stopped, their work ended with REPLAYED (R449 step 1). -/
def stopJob (s : State) : State :=
  let is := (s.obj.ctxs.filter fun kv => isJobCtx s kv.1).map Prod.fst
  let s := is.foldl (fun s i => stopContext s i) s
  retireCmds s (fun _ q => match q.ctx with | some i => is.contains i | none => false) fun _ => .replayed

/-- A signal of the job's replay fence (R449, R450). -/
def signalReplay (s : State) (v : Nat) (st : Status) : State :=
  match s.obj.job with
  | some j => signalFence s (fld j.2.2.toNat 23 0) v st
  | none => s

/-- READY for the decision in hand, sent to the coordinator held as active (R447, R449 step 7). -/
def sendReady (s : State) (d : Decision) : State :=
  sendMail s (activeNode s) (mailB 6 d.epoch d.dseq 0 0 d.step d.base [])

/-- A restore that meets poison: a MEM_UE, and the fault reported (R443, R450). -/
def restoreFault (s : State) (a step : Nat) : State :=
  sendReport (poisonMet s (some a) 0 none) 3 (logicalNode s) step

/-- Whether the job's work has ended that step 1 of R449 lets complete: what its cores have issued, and its ladle commands. A
core whose clock has stopped is not waited for (R179, R544, log entry 128). -/
def jobSettled (s : State) : Bool :=
  s.clk.down != 0 ||
    (s.cores.all (fun kv => !(kv.2.ctx.any (isJobCtx s)) || settled kv.2) && !s.ladles.any fun kv => isJobCtx s kv.2.cmd.ctx)

/-- The restore that is due is over, whether it was made or not. -/
def restoreDone (s : State) : State := modTurn s fun t => { t with restoring := false }

/-- Steps 6 and 7 of R449, once no epoch change is under way, the work of the job has ended and the channels of the slots are
awake (R283); a spare waits for its copy, and a member without the turning, or one whose restore meets poison, reports the
fault (R450, R455). -/
def goOn (s : State) : State :=
  match s.turn.accepted with
  | none => s
  | some d =>
    let heads := slotParts s 0 ++ slotParts s 1
    if !s.turn.restoring || !replaying s || s.fab.change.isSome || s.fab.drain.isSome || !jobSettled s then s
    else if anyAsleep s heads then askWakes s heads
    else match slotOf s d.base with
      | some k =>
        let parts := restoreParts s k
        if anyAsleep s parts then askWakes s parts
        else match restoreBad s k with
          | some a => restoreFault (restoreDone s) a d.step
          | none => sendReady (restoreStep s d.base k) d
      | none => if s.turn.spareWait then s else sendReport (restoreDone s) 3 (logicalNode s) d.step

/-- HOOP_GRID, HOOP_NEXT and HOOP_PREV of a ring position among members, under grid extents (R387, R416). -/
def ringRegs (members : List (Nat × Nat × Nat)) (ext pos : Nat) : Dword × Dword × Dword :=
  let node (p : Nat) : Nat := match members.find? fun m => m.2.2 == p with | some m => m.1 | none => 0
  let near (d : Nat) (up : Bool) : Nat :=
    let n := fld ext (5 * d + 4) (5 * d) + 1
    let c := fld pos (5 * d + 4) (5 * d)
    let c' := if up then (c + 1) % n else (c + n - 1) % n
    node (pos - c * 2 ^ (5 * d) + c' * 2 ^ (5 * d))
  let word (up : Bool) : Nat := putFld (near 2 up) 16 32 + putFld (near 1 up) 16 16 + putFld (near 0 up) 16 0
  (BitVec.ofNat 64 (putFld pos 15 32 + ext), BitVec.ofNat 64 (word true), BitVec.ofNat 64 (word false))

/-- The ring registers of the spare that a decision puts in the place of a lost member, if this module is it; they come
into force under the drain (R387, R416, R455). -/
def placeRing (s : State) (d : Decision) : Option (Dword × Dword × Dword) :=
  if coordRole s ≠ 3 then none
  else
    (s.obj.members.find? fun m => placeIn d m.1 == ownNode s).map fun m =>
      ringRegs s.obj.members (fld s.hoop.grid.toNat 14 0) m.2.2

/-- This module is the spare that a decision puts in the place of a lost member: it inherits the twin and waits for its
copy; VALID of its own slots goes, so that only the copy counts (R455, log entry 128). -/
def takePlace (s : State) (m : Nat × Nat × Nat) (base : Nat) : State :=
  let twin := mergeBits s.turn.coordCtl.toNat (putFld m.2.1 16 16) (putFld 0xFFFF 16 16)
  let s := memWriteNum (memWriteNum s (slotBase s 0) 8 0) (slotBase s 1) 8 0
  coordPut (modTurn s fun t => { t with coordCtl := BitVec.ofNat 64 twin, spareWait := true, mirrorFrom := base + 1 }) 30 2 0

/-- What a NEW_EPOCH decision means for this module's part in the job: a spare in use, the twin of a lost member,
the spares left (R444, R455). -/
def newParts (s : State) (d : Decision) : State :=
  let own := ownNode s
  let idle := coordRole s == 3
  let fresh := s.obj.members.filter fun m => placeIn d m.1 != physNode s m.1 || (idle && placeIn d m.1 == own)
  let s := fresh.foldl
    (fun s m =>
      let p := placeIn d m.1
      let old := physNode s m.1
      let twin := placeIn d m.2.1
      let s := modTurn s fun t =>
        { t with beats := (t.beats.filter fun b => b.node ≠ old ∧ b.node ≠ p).map (fun b => if b.node = twin then { b with mirrors := [] } else b) ++
            [{ node := p, tick := now s, turns := [], mirrors := [] }] }
      if p = own then takePlace s m d.base
      else if twinNode s = m.1 then
        let s := turnClear s 12
        match mirrorSlot s d.base with
        | some k => modTurn s fun t => { t with spareCopy := some { spare := p, slot := k, next := 0, due := 0 }, mirrorFrom := d.base + 1 }
        | none => modTurn s fun t => { t with mirrorFrom := d.base + 1 }
      else s) s
  let used := s.obj.members.map fun m => placeIn d m.1
  modTurn s fun t => { t with spares := t.spares.filter fun n => !used.contains n }
where
  /-- The mirror slot with a complete mirror of a step. -/
  mirrorSlot (s : State) (r : Nat) : Option Nat :=
    findBelow 2 fun k =>
      let h := rdNum s (mirrorBase s k) 8
      bitOf h 0 && fld h 63 16 == r && decide (s.turn.mirrorFrom ≤ r)

/-- A decision accepted: the coordinators that it leaves, then steps 1 to 5 of R449, or the halt (R446 to R450). -/
def acceptDecision (s : State) (d : Decision) : State :=
  let active := memberOf s d.node
  let standby := (nextStandby s active d.ents).getD 0xFFFF
  let ctl := putFld active 16 48 + putFld standby 16 32 + putFld (twinNode s) 16 16
  let own := logicalNode s
  let role := if coordRole s = 3 then 3 else if own = active then 2 else if own = standby then 1 else 0
  let s := modTurn s fun t =>
    { t with accepted := some d, coordCtl := BitVec.ofNat 64 ctl, cands := t.cands.filter fun n => n ≠ standby ∧ n ≠ active
             decide := if own = active then t.decide else none }
  let s := coordPut (coordPut s 32 32 d.dseq) 30 2 role
  let s := stopJob s
  let change : Option EpochChange :=
    if d.flags / 2 % 2 = 1 then
      let t := applyEnts s d.ents
      some { fmap := t.1, aliases := t.2, epoch := BitVec.ofNat 32 d.epoch, ring := placeRing s d }
    else none
  if 4 ≤ d.flags then
    let s := coordPut (coordPut s 28 1 0) 29 1 1
    let s := modFab (restoreDone s) fun f => { f with change := change }
    let v := match s.obj.job with
      | some j => (match fence? s (fld j.2.2.toNat 15 0) with | some f => f.value.toNat + 1 | none => 1)
      | none => 1
    signalReplay s v .jobHalt
  else
    let s := coordPut (coordPut s 28 1 1) 29 1 0
    let s := hoopAbandon s
    let s := modTurn s fun t => { t with run := none, restoring := true }
    let s := flushHeld s
    let s := { s with cores := s.cores.map fun kv => (kv.1, { kv.2 with phase := { kv.2.phase with segLeft := none, held := none } }) }
    match change with
    | some t => modFab (newParts s d) fun f => { f with change := some t }
    | none => goOn s

/-- The decision in hand sent again, under the new tables, to a module that they put back in its former place: no module
reached it there before (R456, log entry 128). -/
def tellReturned (s t : State) : State :=
  match t.turn.decide with
  | some (d, _, true) =>
    let back := t.obj.members.filter fun m => physNode s m.1 != m.1 && physNode t m.1 == m.1
    sendAll t (back.map Prod.fst) (decisionB 3 d)
  | _ => t

/-- ROUTE_TABLE_LOAD (R363): after the drain the new tables come into force, and a replay goes on (R449). -/
def execRouteTableLoad (s : State) : Res := onRind s <|
  .next (
    match s.fab.drain with
    | none => s
    | some t => if drained s then goOn (tellReturned s (loadTables s t)) else s)

/-! ### Mailbox messages -/

/-- Port number of this module's messages to itself. -/
def mailPorts : Nat := 13

/-- A MAILBOX message of a TYPE at the head of a virtual channel, taken (R440); a module outside any job drops it. A
MAILBOX packet of another class than control is answered with ERROR_RSP: ADDRESS_FAULT from outside the membership
(R354), DESC_INVALID from a member (DESIGN CHOICE, log entry 106). -/
def takeMail (s : State) (p vc : Nat) (mine : Bytes → Bool) (run : State → Nat → Bytes → State) : Res :=
  onUnit mailPorts p (.next (
    match homeHead s p vc with
    | none => s
    | some k =>
      if k.opc ≠ 8 then s
      else if k.tc ≠ 2 then
        if admitted s k then respondErr (takeHead s p vc) k .descInvalid else refuseReq (takeHead s p vc) k
      else if !mine k.body then s
      else
        let s := takeHead s p vc
        if s.obj.job.isNone then s else run s k.src k.body))

/-- The two latest of some steps. -/
def noteStep (l : List Nat) (x : Nat) : List Nat := if l.contains x then l else (l ++ [x]).drop (l.length - 1)

/-- The value of a step field that names no step: a module without a complete turning, or without a mirror for its twin,
sends it (DESIGN CHOICE, log entry 104). -/
def noStep : Nat := 2 ^ 48 - 1

/-- Whether a heartbeat comes from the epoch in force or, after a decision, from the epoch that it brings: only then does what
it tells of a mirror count, and only then is a sender that holds no member's place an idle spare (R444, R455, R456, log entry
128). -/
def beatFresh (s : State) (b : Bytes) : Bool :=
  decide (s.fab.epoch.toNat ≤ mEpoch b) && (match s.turn.accepted with | some d => decide (d.epoch ≤ mEpoch b) | none => true)

/-- MAILBOX_HEARTBEAT (R442): recorded; a message of a reserved TYPE is dropped and counted here (R441). -/
def execMailboxHeartbeat (p vc : Nat) (s : State) : Res := onRind s <|
  takeMail s p vc (fun b => mType b == 1 || mType b == 0 || decide (6 < mType b)) fun s src b =>
    if mType b ≠ 1 then modTurn s fun t => { t with badMail := t.badMail + 1 }
    else
      let old := (s.turn.beats.find? fun x => x.node == src).getD { node := src, tick := 0, turns := [], mirrors := [] }
      let mir := if mNent b = 0 || !beatFresh s b then [] else [fld ((mEnts b).getD 0 0) 63 16]
      let note (l : List Nat) (xs : List Nat) : List Nat := (xs.filter fun x => x ≠ noStep).foldl noteStep l
      let x : Beat := { node := src, tick := now s, turns := note old.turns [mBase b], mirrors := note old.mirrors mir }
      let idle := beatFresh s b && !s.obj.members.any fun m => placeOf s m.1 == src
      modTurn s fun t =>
        { t with
          beats := (t.beats.filter fun y => y.node ≠ src) ++ [x]
          spares := if idle && !t.spares.contains src then t.spares ++ [src] else t.spares }

/-- The step of the latest complete mirror held for the twin, if one counts (R441, R455). -/
def heldMirror (s : State) : Option Nat :=
  (List.range 2).foldl
    (fun m k =>
      let h := rdNum s (mirrorBase s k) 8
      if bitOf h 0 && decide (s.turn.mirrorFrom ≤ fld h 63 16) then some (max (m.getD 0) (fld h 63 16)) else m) none

/-- HEARTBEAT_TIMER (R442): a module that is not unfit (R550); the slot headers that it reads are awake (R283). -/
def execHeartbeatTimer (s : State) : Res := onRind s <|
  .next (
    let heads := slotParts s (lastSlot s) ++ [(mirrorBase s 0, 8), (mirrorBase s 1, 8)]
    if s.obj.job.isNone || s.triage.unfit || subMod 64 (now s) s.turn.lastBeat < beatTime s then s
    else if anyAsleep s heads then askWakes s heads
    else
      let code := putBit (bitOf s.hoop.stat.toNat 8) 0 + putBit (bitOf s.turn.stat.toNat 12) 1
      let s := modTurn s fun t => { t with lastBeat := now s }
      sendBoth s (mailB 1 s.fab.epoch.toNat (coordDseq s) 0 code (jobStep s) ((ownTurning s).getD noStep)
        [putFld ((heldMirror s).getD noStep) 48 16]))

/-- Whether this module is the active coordinator. -/
def isActive (s : State) : Bool := coordRole s == 2

/-- Members whose loss a decision has not dealt with yet. -/
def lostMembers (s : State) : List Nat :=
  (s.obj.members.map Prod.fst).filter fun n => !isCurrent s n && n != logicalNode s

/-- MEMBER_LOSS_EXPIRY (R442, R444). -/
def execMemberLossExpiry (node : Nat) (s : State) : Res := onRind s <|
  .next (if isActive s && (lostMembers s).contains node then decideOn s (lostMembers s) [] else s)

/-- Whether a decision covers a report: made in an earlier epoch, or before its sender accepted the decision and about a
step that the decision runs again; and the lost members and dead links that it brings are declared by the decision
(R443, log entry 104). -/
def covers (s : State) (d : Decision) (b : Bytes) (lost links : List Nat) : Bool :=
  let named (n row : Nat) : Bool := d.ents.any fun e => entNode e == n && (entRow e &&& row) == row
  (decide (mEpoch b < d.epoch) || (mEpoch b == d.epoch && decide (mDseq b < d.dseq) && decide (d.base < mStep b))) &&
    (lost.all fun n => named (physNode s n) 128) && links.all fun e => named (entNode e) (entRow e)

/-- MAILBOX_REPORT (R443, R444): acknowledged and dropped where the decision in hand or the accepted one covers it. -/
def execMailboxReport (p vc : Nat) (s : State) : Res := onRind s <|
  takeMail s p vc (fun b => mType b == 2) fun s src b =>
    if !isActive s then s
    else
      let lost := if isCurrent s (mSubject b) || !(s.obj.members.any fun m => m.1 == mSubject b) then [] else [mSubject b]
      let links := (mEnts b).filter fun e => entRow e &&& (mget s.fab.fmap 0 (entNode e)).toNat ≠ entRow e
      let met (d : Option Decision) : Bool := match d with | some d => covers s d b lost links | none => false
      if met (s.turn.decide.map Prod.fst) || met s.turn.accepted then
        sendMail s src (mailB 5 (mEpoch b) (mDseq b) (mSubject b) 0 (mStep b) 0 [])
      else decideOn s lost (mEnts b)

/-- The parts of a decision gathered: the whole once the last one is here (R441). -/
def gatherParts (s : State) (src : Nat) (b : Bytes) : State × Option Decision :=
  let mine (x : Nat × Bytes) : Bool :=
    x.1 == src && mType x.2 == mType b && mEpoch x.2 == mEpoch b && mDseq x.2 == mDseq b && mCode x.2 == mCode b
  let ps := (s.turn.parts.filter fun x => mine x && mPart x.2 != mPart b) ++ [(src, b)]
  let other := s.turn.parts.filter fun x => !mine x
  if ps.length < mParts b then (modTurn s fun t => { t with parts := other ++ ps }, none)
  else
    let ents := (List.range (mParts b)).flatMap fun i =>
      match ps.find? fun x => mPart x.2 == i with | some x => mEnts x.2 | none => []
    (modTurn s fun t => { t with parts := other },
      some { epoch := mEpoch b, dseq := mDseq b, flags := mCode b, step := mStep b, base := mBase b, ents := ents, node := src })

/-- MAILBOX_MIRROR (R445): the decision kept and acknowledged. -/
def execMailboxMirror (p vc : Nat) (s : State) : Res := onRind s <|
  takeMail s p vc (fun b => mType b == 4) fun s src b =>
    if !isFrom s src (activeNode s) then s
    else match gatherParts s src b with
      | (s, none) => s
      | (s, some d) =>
        sendMail (modTurn s fun t => { t with mirrored := some d }) src (mailB 5 d.epoch d.dseq 0 0 d.step d.base [])

/-- MAILBOX_ACK (R445): the standby holds the decision in hand, which is sent. -/
def execMailboxAck (p vc : Nat) (s : State) : Res := onRind s <|
  takeMail s p vc (fun b => mType b == 5) fun s src b =>
    match s.turn.decide with
    | some (d, false, _) =>
      let standby := (nextStandby s (logicalNode s) d.ents).getD 0xFFFF
      if d.dseq = mDseq b && d.epoch = mEpoch b && isFrom s src standby then sendDecision s else s
    | _ => s

/-- MIRROR_ACK_TIMEOUT (R445): the standby is treated as lost, and the new decision names the next candidate. -/
def execMirrorAckTimeout (s : State) : Res := onRind s <|
  .next (
    match s.turn.decide with
    | some (d, false, _) =>
      if subMod 64 (now s) s.turn.decideTick < lossTime s then s
      else
        let standby := nextStandby s (logicalNode s) d.ents
        let s := modTurn s fun t => { t with beats := t.beats.filter fun b => some b.node ≠ standby.map (placeOf s) }
        decideOn s (lostMembers s) []
    | _ => s)

/-- Whether two decisions have the same place in the order (R446). -/
def sameOrder (a d : Decision) : Bool := a.epoch == d.epoch && a.dseq == d.dseq

/-- The decision that this module has in hand as coordinator, with the place in the order of another one. -/
def ownTie (s : State) (d : Decision) : Option Decision := (s.turn.decide.map Prod.fst).filter fun x => sameOrder x d

/-- Whether a decision orders after the last one accepted, or replaces it, and loses to no decision of the same place
that this module has in hand (R446, R447). -/
def ordersAfter (s : State) (d : Decision) : Bool :=
  (match s.turn.accepted with
    | none => true
    | some a =>
      decide (a.epoch < d.epoch) || (a.epoch == d.epoch && decide (a.dseq < d.dseq)) ||
        (sameOrder a d && decide (d.node < a.node))) &&
    !(ownTie s d).any fun x => decide (x.node < d.node)

/-- Whether a decision has the place of the accepted one, or of the one in hand here, and comes from a lower node (R446,
R447). -/
def winsTie (s : State) (d : Decision) : Bool :=
  (s.turn.accepted.any fun a => sameOrder a d && decide (d.node < a.node)) || (ownTie s d).any fun x => decide (d.node < x.node)

/-- Whether the sender of a decision may send it: the active coordinator, the standby that takes over, or the
winner of a tie (R446 to R448). -/
def maySend (s : State) (d : Decision) : Bool :=
  let dead := (d.ents.filter entDead).map entNode
  isFrom s d.node (activeNode s) ||
    (isFrom s d.node (standbyNode s) && d.flags / 2 % 2 == 1 &&
      (dead.contains (activeNode s) || dead.contains (physNode s (activeNode s)))) ||
    winsTie s d

/-- A coordinator that sees its own decision lose becomes a plain member (R446). -/
def seeTie (s : State) (d : Decision) : State :=
  match s.turn.decide with
  | some (x, _, _) =>
    if x.epoch = d.epoch && x.dseq = d.dseq && d.node < x.node then
      coordPut (modTurn s fun t => { t with decide := none, lost := true }) 30 2 0
    else s
  | none => s

/-- MAILBOX_DECISION (R446 to R450). -/
def execMailboxDecision (p vc : Nat) (s : State) : Res := onRind s <|
  takeMail s p vc (fun b => mType b == 3 && !bitOf (mCode b) 0) fun s src b =>
    match gatherParts s src b with
    | (s, none) => s
    | (s, some d) =>
      if !ordersAfter s d || !maySend s d then s else acceptDecision (seeTie s d) d

/-- DECISION_GO (R447, R449): the job resumes; the replay fence is signalled with r + 1. -/
def execDecisionGo (p vc : Nat) (s : State) : Res := onRind s <|
  takeMail s p vc (fun b => mType b == 3 && bitOf (mCode b) 0) fun s src b =>
    match s.turn.accepted with
    | some d =>
      if d.epoch = mEpoch b && d.dseq = mDseq b && isFrom s src (activeNode s) && mPart b = 0 && replaying s then
        signalReplay (coordPut s 28 1 0) (d.base + 1) .ok
      else s
    | none => s

/-- Whether every member of the membership has sent READY (R449). -/
def allReady (s : State) : Bool :=
  s.obj.members.all fun m => s.turn.ready.any fun n => isFrom s n m.1

/-- MAILBOX_READY (R447, R449). -/
def execMailboxReady (p vc : Nat) (s : State) : Res := onRind s <|
  takeMail s p vc (fun b => mType b == 6) fun s src b =>
    match s.turn.decide with
    | some (d, _, true) =>
      if d.dseq ≠ mDseq b || d.epoch ≠ mEpoch b then s
      else
        let s := modTurn s fun t => { t with ready := kput t.ready src }
        if allReady s && !s.turn.lost then
          sendAll (modTurn s fun t => { t with decide := none }) (audience s d) (decisionB 3 { d with flags := d.flags + goBit })
        else s
    | _ => s

/-- STANDBY_TAKEOVER (R448). -/
def execStandbyTakeover (s : State) : Res := onRind s <|
  .next (
    if s.obj.job.isNone || coordRole s ≠ 1 || isCurrent s (activeNode s) then s
    else
      let old := activeNode s
      let ctl := mergeBits s.turn.coordCtl.toNat (putFld (logicalNode s) 16 48) (putFld 0xFFFF 16 48)
      let s := coordPut (modTurn s fun t => { t with coordCtl := BitVec.ofNat 64 ctl }) 30 2 2
      decideOn s (if (lostMembers s).contains old then lostMembers s else old :: lostMembers s) [])

/-- Part n of the copy of a mirror slot: offset and bytes. The granules, then the header without its first word, then
that word with VALID (R455). -/
def sparePart (s : State) (n : Nat) : Nat × Nat :=
  let total := granuleCount (turnRegions s)
  if n < total then (granule + n * granule, granule) else if n = total then (8, granule - 8) else (0, 8)

/-- SPARE_MIRROR_COPY (R455): the twin of a lost member sends the next part of its mirror slot to the spare, VALID last and
only once every other byte is written there; at the spare, whose copy has come whole, the restore. -/
def execSpareMirrorCopy (s : State) : Res := onRind s <|
  .next (
    match s.turn.spareCopy with
    | none => if s.turn.spareWait then goOn s else s
    | some c =>
      let total := granuleCount (turnRegions s)
      let x := sparePart s c.next
      let src := mirrorBase s c.slot + x.1
      if total < c.next && c.due ≠ 0 then s
      else if total + 1 < c.next then modTurn s fun t => { t with spareCopy := none }
      else if asleep s src x.2 then askWake s src x.2
      else
        let (s, m) := sendCkpt s .spare c.spare (slotBase s c.slot + x.1) (rdBytes s src x.2)
        modTurn s fun t => { t with spareCopy := some { c with next := c.next + 1, due := c.due + m } })

end Sys2Proof.Machine
end

