-- ==== Sys2Proof/Machine/Csr.lean ====
section
/-! DEFINITION. Control and status space (R32, R33, R614): every register by its address, with its width,
what a read returns and does, and what a write does under its access codes (R13). -/

namespace Sys2Proof.Machine

/-- A register at its address: its width in bits, the value that a read returns, the state after that
read, and the effect of a write, none where the write has to wait. -/
structure Reg where
  width : Nat
  val : Nat
  after : State
  put : Nat → Option State

/-- A register that is only read (R13). -/
def regRO (s : State) (w v : Nat) : Reg := { width := w, val := v, after := s, put := fun _ => some s }

/-- A register that a read clears (R13). -/
def regRC (s t : State) (w v : Nat) : Reg := { width := w, val := v, after := t, put := fun _ => some s }

/-- A register with an effect on write. -/
def regRW (s : State) (w v : Nat) (f : Nat → State) : Reg := { width := w, val := v, after := s, put := fun x => some (f x) }

/-- A register whose write may have to wait. -/
def regWait (s : State) (w v : Nat) (f : Nat → Option State) : Reg := { width := w, val := v, after := s, put := f }

/-- A register that reads 0 and acts on the value written. -/
def regWO (s : State) (w : Nat) (f : Nat → Option State) : Reg := { width := w, val := 0, after := s, put := f }

/-- A number as 64 or 32 bits. -/
def dw (n : Nat) : Dword := BitVec.ofNat 64 n
def w32 (n : Nat) : Word := BitVec.ofNat 32 n

/-- A field at or above its least value, or with 0 stored as 1. -/
def orOne (n : Nat) : Nat := if n = 0 then 1 else n

/-- Old bits less those that a write of ones clears in a field mask (R13). -/
def clears (old v mask : Nat) : Nat := old - (old &&& (v &&& mask))

/-! ### Pages of a core (R96, R133, R180, R246, R275, R506) -/

/-- The press page (R96 to R100). -/
def pressReg (s : State) (c off : Nat) : Option Reg :=
  let p := (coreOf s c).press
  match off with
  | 0x000 => some (regRW s 32 p.stat.toNat fun v => modPress s c fun p => { p with stat := BitVec.ofNat 7 (clears p.stat.toNat v 0x3F) })
  | 0x008 => some (regRW s 64 p.srLog.toNat fun v => modPress s c fun p => { p with srLog := dw (clears p.srLog.toNat v (2 ^ 63)) })
  | 0x010 => some (regRW s 64 p.fltLog.toNat fun v => modPress s c fun p => { p with fltLog := dw (clears p.fltLog.toNat v (2 ^ 63)) })
  | 0x018 => some (regRO s 32 (mget s.fltCnt 0 (physOf s c)).toNat)
  | _ => none

/-- The press queue page (R133 to R137). -/
def pressQReg (s : State) (c off : Nat) : Option Reg :=
  let k := coreOf s c
  let gather := k.press.runs.any fun r => r.gather
  match off with
  | 0x000 => some (regRO s 32 (putBit gather 24 + putFld (pressDepth k) 8 16 + k.press.lastSeq.toNat))
  | 0x004 => some (regRO s 32 k.press.seq.toNat)
  | 0x008 => some (regWait s 32 k.press.coCtl.toNat fun v => pressStore s c (none, w32 v))
  | _ =>
    if 0x100 ≤ off && off < 0x200 && off % 4 == 0 then
      let n := (off - 0x100) / 4
      some (regWait s 32 (mget k.press.cc 0 n).toNat fun v => pressStore s c (some n, w32 v))
    else none

/-- The core page (R180 to R183). -/
def coreReg (s : State) (c off : Nat) : Option Reg :=
  let k := coreOf s c
  match off with
  | 0x000 => some (regRO s 64 (coreOcc k))
  | 0x008 => some (regRW s 32 k.stat.toNat fun v => modCore s c fun k => { k with stat := BitVec.ofNat 3 (clears k.stat.toNat v 7) })
  | 0x010 => some (regRO s 64 k.issueCnt.toNat)
  | 0x018 => some (regRO s 64 k.resCnt.toNat)
  | _ => none

/-- The whey page (R246 to R252). -/
def wheyReg (s : State) (c off : Nat) : Option Reg :=
  let k := coreOf s c
  let w := k.whey
  match off with
  | 0x000 => some (regRW s 32 w.stat.toNat fun v => modWhey s c fun w => { w with stat := BitVec.ofNat 8 (clears w.stat.toNat v 0x7F) })
  | 0x004 => some (regRO s 32 w.seq.toNat)
  | 0x008 => some (regRO s 32 (putFld (wheyDepth k) 6 16 + w.lastSeq.toNat))
  | 0x010 => some (regRW s 64 w.log0.toNat fun v => modWhey s c fun w => { w with log0 := dw (clears w.log0.toNat v (2 ^ 63)) })
  | 0x018 => some (regRO s 64 w.log1.toNat)
  | 0x020 => some (regRC s (modWhey s c fun w => { w with nanCnt := 0 }) 32 w.nanCnt.toNat)
  | 0x028 => some (regRW s 64 w.ocLive.toNat fun v => modWhey s c fun w => { w with ocLive := dw v })
  | 0x030 => some (regRW s 64 w.seed.toNat fun v => cultureWrite s c none (dw v))
  | _ =>
    if 0x100 ≤ off && off < 0x200 && off % 4 == 0 then
      let n := (off - 0x100) / 4
      some (regRW s 32 (mget w.cc 0 n).toNat fun v => modWhey s c fun w => { w with cc := mset w.cc 0 n (w32 v) })
    else if 0x200 ≤ off && off < 0x400 && off % 8 == 0 then
      let l := (off - 0x200) / 8
      some (regRW s 64 (mget w.ctr 0 l).toNat fun v => cultureWrite s c (some l) (dw v))
    else none

/-- The saturation page (R275). -/
def satReg (s : State) (c off : Nat) : Option Reg :=
  let p := (coreOf s c).press
  match off with
  | 0x000 => some (regRW s 32 (putBit p.satOvf 0) fun v => modPress s c fun p => { p with satOvf := p.satOvf && !bitOf v 0 })
  | 0x004 => some (regRC s (modPress s c fun p => { p with satOther := 0 }) 32 p.satOther.toNat)
  | _ =>
    if 0x100 ≤ off && off < 0x200 && off % 8 == 0 then
      let n := (off - 0x100) / 8
      some (regRW s 64 (mget p.sat 0 n).toNat fun v => if bitOf v 63 then modPress s c fun p => satFree p n else s)
    else none

/-- The launch page (R506). -/
def launchReg (s : State) (c off : Nat) : Option Reg :=
  if off < 0x400 && off % 8 == 0 then some (regRO s 64 (mget (coreOf s c).param 0 (off / 8)).toNat) else none

/-- The registers of a vat block (R32, R461, R465). -/
def vatReg (s : State) (v off : Nat) : Option Reg :=
  if off < 0x40000000 then
    let c := 64 * v + off / 0x1000000
    let o := off % 0x1000000
    match o / 0x1000 with
    | 0x40 => pressReg s c (o % 0x1000)
    | 0x41 => pressQReg s c (o % 0x1000)
    | 0x42 => coreReg s c (o % 0x1000)
    | 0x43 => wheyReg s c (o % 0x1000)
    | 0x44 => satReg s c (o % 0x1000)
    | 0x45 => launchReg s c (o % 0x1000)
    | _ => none
  else
    let o := off - 0x80000000
    if off < 0x80000000 || o % 8 != 0 then none
    else if o < 0x40 then
      some (regRO s 64 (leVal ((List.range 8).map fun i => BitVec.ofNat 8 (physOf s (64 * v + o + i) % 66))))
    else if o < 0x50 then
      some (regRO s 64 ((List.range 64).foldl (fun m i =>
        m + putBit (8 * (o - 0x40) + i < 66 && s.vatFail.contains (66 * v + 8 * (o - 0x40) + i)) i) 0))
    else none

/-! ### Hub common block -/

/-- START_STAT (R528). -/
def startStat (s : State) : Nat :=
  putFld s.start.fwVer.toNat 32 32 + putFld s.start.fail.toNat 16 16 + putBit s.start.flashChg 15 + putBit s.start.cfgRet 14 +
    putBit s.start.warm 13 + s.start.stage.toNat

/-- RUONG_NODE (R372). -/
def nodeReg (s : State) : Nat :=
  putFld (ringSize s 0 - 1) 5 41 + putFld (ringSize s 1 - 1) 5 36 + putFld (ringSize s 2 - 1) 4 32 + putFld s.pow.pos.toNat 3 16 + ownNode s

/-- OBJ_STAT (R504). -/
def objStat (s : State) : Nat := putFld (ctxSlots s) 6 26 + putFld (queueSlots s) 7 19 + putFld (waitSlots s) 9 10

/-- TRIAGE_STAT (R559). -/
def triageStat (s : State) : Nat :=
  putFld s.triage.lastClass.toNat 8 8 + putFld s.triage.lastAct.toNat 3 5 + putBit s.triage.unfit 2 + putBit s.triage.replayReq 1 +
    putBit s.triage.degraded 0

/-- The effective limit of R606 in units of 1/128 W, which FLOW_LOW holds at 2,400 W while it is set. -/
def effLimit (p : Power) : Nat := if p.flowLow then min p.base 307200 else p.base

/-- PWR_STAT and PWR_GATE (R611, R612). -/
def pwrStat (s : State) : Nat :=
  putFld (effLimit s.pow / 128) 16 48 + putFld s.pow.pAvg.toNat 16 32 + putFld s.pow.k.toNat 6 8 + putFld s.pow.trip.toNat 2 3 +
    putBit s.pow.flowLow 2 + putBit s.pow.therm 1 + putBit s.pow.pwr 0
def pwrGate (s : State) : Nat :=
  (List.range 4).foldl (fun m v => m + putFld (s.pow.kv.getD v 0) 6 (6 * v)) 0

/-- The changes of the small groups. -/
def modQw (s : State) (f : Regen → Regen) : State := { s with qw := f s.qw }
def modClk (s : State) (f : Clocks → Clocks) : State := { s with clk := f s.clk }
def modPow (s : State) (f : Power → Power) : State := { s with pow := f s.pow }
def modMeter (s : State) (f : Meter → Meter) : State := { s with meter := f s.meter }

/-- Stored forms of registers with rules on what a write stores (R276, R373, R504). -/
def qwCtlStore (v : Nat) : Word := w32 (putBit (bitOf v 31) 31 + orOne (fld v 15 0))
def qwBaseStore (v : Nat) : Dword := dw (putFld (fld v 47 6) 42 6)
def qwCntStore (v : Nat) : Word := w32 (min (fld v 12 0) 4096)
def arbStore (v : Nat) : Word :=
  w32 (putFld (orOne (fld v 23 16)) 8 16 + putFld (orOne (fld v 15 8)) 8 8 + orOne (fld v 7 0))

/-- The registers of the hub common block at offsets below 0x1000. -/
def hubReg (s : State) (off : Nat) : Option Reg :=
  match off with
  | 0x100 => some (regRW s 32 (putFld s.dutyFb.toNat 8 16 + dutyWord s) fun v =>
      { s with dutyFb := BitVec.ofNat 8 (clears s.dutyFb.toNat (fld v 23 16) 0xFF) })
  | 0x200 => some (regRW s 32 s.qw.ctl.toNat fun v => modQw s fun q => { q with ctl := qwCtlStore v })
  | 0x208 => some (regRW s 64 s.qw.tblBase.toNat fun v => modQw s fun q => { q with tblBase := qwBaseStore v })
  | 0x210 => some (regRW s 32 s.qw.tblCnt.toNat fun v => modQw s fun q => { q with tblCnt := qwCntStore v })
  | 0x218 => some (regRW s 32 (s.qw.stat.toNat + putBit (!s.qw.checks.isEmpty || !s.qw.switches.isEmpty) 31) fun v => modQw s fun q => { q with stat := w32 (clears q.stat.toNat v 0xE00000) })
  | 0x300 => some (regRO s 32 (ilvWord s))
  | 0x400 => some (regRO s 64 (nodeReg s))
  | 0x408 => some (regRW s 32 s.fab.tmo.toNat fun v => modFab s fun f => { f with tmo := w32 (max (fld v 31 0) 0x1000) })
  | 0x410 => some (regRW s 32 s.fab.arb.toNat fun v => modFab s fun f => { f with arb := arbStore v })
  | 0x418 => some (regRO s 32 s.fab.epoch.toNat)
  | 0x420 => some (regRC s (modFab s fun f => { f with drop := 0 }) 64 s.fab.drop.toNat)
  | 0x500 => some (regRO s 32 (objStat s))
  | 0x504 => some (regRW s 32 s.obj.quar.toNat fun v => modObj s fun o => { o with quar := w32 (max (fld v 31 0) 0x0BEBC200) })
  | 0x508 => some (regRC s (modObj s fun o => { o with drop := 0 }) 64 s.obj.drop.toNat)
  | 0x510 => some (regRO s 64 s.obj.fenceBase.toNat)
  | 0x600 => some (regRO s 64 (startStat s))
  | 0x700 => some (regRO s 64 s.clk.stat.toNat)
  | 0x708 => some (regRW s 64 s.clk.lost.toNat fun v => modClk s fun k => { k with lost := dw (clears k.lost.toNat v 0xFFFFFFFFE) })
  | 0x710 => some (regRW s 32 s.clk.ovr.toNat fun v => modClk s fun k => { k with ovr := BitVec.ofNat 4 (clears k.ovr.toNat v 0xF) })
  | 0x718 => some (regRO s 64 s.refCnt.toNat)
  | 0x800 => some (regRC s (modTriage s fun t => { t with corr := 0 }) 64 s.triage.corr.toNat)
  | 0x808 => some (regRC s (modTriage s fun t => { t with uncorr := 0 }) 64 s.triage.uncorr.toNat)
  | 0x810 => some (regRW s 32 (triageStat s) fun v => modTriage s fun t =>
      { t with replayReq := t.replayReq && !bitOf v 1, degraded := t.degraded && !bitOf v 0 })
  | 0x900 => some (regRO s 64 (putFld s.meter.txSeq.toNat 32 32 + putFld s.meter.gen.toNat 16 16 + s.meter.nent.toNat))
  | 0xA00 => some (regRW s 64 (pwrStat s) fun v => modPow s fun p =>
      { p with flowLow := p.flowLow && !bitOf v 2, therm := p.therm && !bitOf v 1, pwr := p.pwr && !bitOf v 0 })
  | 0xA08 => some (regRO s 64 (pwrGate s))
  | _ =>
    if 0x620 ≤ off && off < 0x640 && off % 8 == 0 then
      let d := match s.start.cfg with | some f => f.digest | none => []
      some (regRO s 64 (wordAt d (off - 0x620)))
    else none

/-- The tables of R375: fault map bytes, aliases and route cache. -/
def hubTable (s : State) (off : Nat) : Option Reg :=
  if 0x10000 ≤ off && off < 0x14000 then some (regRO s 8 (mget s.fab.fmap 0 (off - 0x10000)).toNat)
  else if 0x14000 ≤ off && off < 0x14400 && off % 4 == 0 then some (regRO s 32 (mget s.fab.aliases 0 ((off - 0x14000) / 4)).toNat)
  else if 0x20000 ≤ off && off < 0x30000 && off % 4 == 0 then
    some (regRO s 32 (if dutyMode s 3 = 0 then 0 else (mget s.fab.rcache 0 ((off - 0x20000) / 4)).toNat))
  else none

/-! ### Doorbell, port, hoop, ladle, cave and interface blocks -/

/-- The doorbell page of a queue (R505). -/
def bellReg (s : State) (q off : Nat) : Option Reg :=
  match off with
  | 0x000 => some (regWO s 64 fun v => some (ringBell s q (dw v)))
  | 0x008 => some (regRO s 64 (match queue? s q with | some x => putFld x.ri.toNat 32 32 + x.adm.toNat | none => 0))
  | 0x010 => some (regWO s 64 fun _ => some (renewLease s q))
  | _ => none

/-- RUONG_PSTAT (R377). -/
def portStat (q : Port) : Nat :=
  putFld q.nbrNode.toNat 16 48 + putFld q.nbrPort.toNat 4 44 + putFld q.state 3 37 + putFld q.width.toNat 2 35 + putBit q.reversed 34 +
    putFld q.polinv.toNat 16 16 + putFld q.attempts.toNat 8 8

/-- The registers of a port (R376 to R379). -/
def portReg (s : State) (p off : Nat) : Option Reg :=
  let q := portOf s p
  match off with
  | 0x000 => some (regRO s 64 (portStat q))
  | 0x008 => some (regRW s 32 (putBit q.en 31 + putBit q.retrain 30 + putBit q.halfOk 29) fun v => writePctl s p v)
  | 0x010 => some (regRC s (modPort s p fun q => { q with perr := 0 }) 64 q.perr.toNat)
  | 0x018 => some (regRC s (modPort s p fun q => { q with pcorr := 0 }) 64 q.pcorr.toNat)
  | _ => none

/-- The hoop block (R415 to R419). -/
def hoopReg (s : State) (off : Nat) : Option Reg :=
  let h := s.hoop
  match off with
  | 0x00 => some (regRW s 64 h.bktBase.toNat fun v => modHoop s fun h => { h with bktBase := qwBaseStore v })
  | 0x08 => some (regRW s 32 h.bktCnt.toNat fun v => modHoop s fun h => { h with bktCnt := w32 (min (fld v 16 0) 65536) })
  | 0x10 => some (regRW s 64 h.stateBase.toNat fun v => modHoop s fun h => { h with stateBase := qwBaseStore v })
  | 0x18 => some (regRW s 64 h.grid.toNat fun v => modHoop s fun h => { h with grid := dw (v &&& 0x7FFF00007FFF) })
  | 0x20 => some (regRW s 64 h.next.toNat fun v => modHoop s fun h => { h with next := dw (fld v 47 0) })
  | 0x28 => some (regRW s 64 h.prev.toNat fun v => modHoop s fun h => { h with prev := dw (fld v 47 0) })
  | 0x30 => some (regRW s 32 h.ctl.toNat fun v => modHoop s fun h =>
      { h with ctl := w32 (putBit (bitOf v 31) 31 + putFld (orOne (fld v 23 16)) 8 16) })
  | 0x34 => some (regRW s 32 h.stall.toNat fun v => modHoop s fun h => { h with stall := w32 (max (fld v 31 0) 0x00030D40) })
  | 0x38 => some (regRW s 32 h.stat.toNat fun v => modHoop s fun h => { h with stat := BitVec.ofNat 9 (clears h.stat.toNat v 0xFF) })
  | 0x40 => some (regRO s 64 h.late.toNat)
  | 0x48 => some (regRC s (modHoop s fun h => { h with drop := 0 }) 64 h.drop.toNat)
  | 0x50 => some (regRC s (modHoop s fun h => { h with chk := 0 }) 64 h.chk.toNat)
  | 0x58 => some (regRC s (modHoop s fun h => { h with rscl := 0 }) 64 h.rscl.toNat)
  | _ =>
    if 0x10000 ≤ off && off < 0x110000 && off % 0x1000 == 0 then some (regWO s 64 fun v => some (hoopSignal s v)) else none

/-- The ladle slot page of a core (R302, R304). -/
def ladleReg (s : State) (c off : Nat) : Option Reg :=
  let k := coreOf s c
  if off < 0xC00 && off % 8 == 0 then
    some { regRO s 64 (mget k.lslot 0 (off / 8)).toNat with
      put := fun v =>
        if off / 8 % 8 = 7 then (if 16 ≤ k.ladleQ.length then none else some (submitLadle s c (off / 64) k.isn (dw v)))
        else some (modCore s c fun k => { k with lslot := mset k.lslot 0 (off / 8) (dw v) }) }
  else if off = 0xC00 then
    some (regRW s 32 (putFld k.ladleQ.length 5 16 + putBit k.fullStall 0) fun v =>
      modCore s c fun k => { k with fullStall := k.fullStall && !bitOf v 0 })
  else none

/-- CAVE_CTL (R285). -/
def caveReg (s : State) (off : Nat) : Option Reg :=
  let m := s.memCtl
  if off = 0 then
    some (regRW s 32
      (putBit m.srHold 31 + putBit m.parkEn 30 + putBit m.scrubEn 24 + putFld m.scrubHrs.toNat 8 16 + s.start.caveUp.toNat) fun v =>
      { s with memCtl := { m with
          srHold := bitOf v 31, parkEn := bitOf v 30, scrubEn := bitOf v 24, scrubHrs := BitVec.ofNat 8 (orOne (fld v 23 16)) } })
  else none

/-- Service port registers (R594). -/
def ethReg (s : State) (p off : Nat) : Option Reg :=
  let e := mget s.eths {} p
  match off with
  | 0x000 => some (regRW s 64 (putFld e.open_ 16 48 + putBit e.pfcRx 3 + e.link.toNat) fun v =>
      modEth s p fun e => { e with pfcRx := e.pfcRx && !bitOf v 3 })
  | 0x008 => some (regRC s (modEth s p fun e => { e with cnt := 0 }) 64 e.cnt.toNat)
  | _ => none

/-- PCIe link registers (R585, R594). -/
def pcieReg (s : State) (l off : Nat) : Option Reg :=
  let x := mget s.pcies {} l
  match off with
  | 0x000 => some (regRO s 32
      (putFld x.speed.toNat 4 28 + putFld x.width.toNat 3 24 + putBit (x.speed == 6) 23 + putBit x.ecrc 22 + putBit x.nvme 21 +
        putFld x.ns.length 7 14))
  | 0x008 => some (regRC s (modPcie s l fun x => { x with lerr := 0 }) 64 x.lerr.toNat)
  | _ => none

/-! ### Turning block (R461 to R464) -/

/-- SEG_STAT (R464). -/
def segStat (k : Core) : Nat :=
  let p := k.phase
  let r := match p.recSeg with | some (id, _, _) => putBit true 30 + putFld id 8 22 | none => 0
  putFld p.segRefusal 16 32 + putBit (segBusy k) 31 + r + putFld p.segLastId 8 8 + putFld p.segLast 8 0

/-- The phase page of a core (R464). -/
def phaseReg (s : State) (c off : Nat) : Option Reg :=
  let k := coreOf s c
  match off with
  | 0x000 => some (regWO s 64 fun v => phaseStore s c (dw v))
  | 0x008 => some (regWO s 64 fun v => some (shardStore s c (dw v)))
  | 0x010 => some (regRW s 64 k.phase.segBuf.toNat fun v => modPhase s c fun p =>
      { p with segBuf := dw (putFld (fld v 63 56) 8 56 + putFld (fld v 47 12) 36 12) })
  | 0x018 => some (regWO s 64 fun v => segReplayStore s c (dw v))
  | 0x020 => some (regRO s 64 (segStat k))
  | _ => none

/-- Stored forms of the turning registers (R462, R463). -/
def turnCtlStore (v : Nat) : Word := w32 (v &&& 0xC00F0003)
def turnSlotStore (v : Nat) : Dword := dw (putFld (fld v 47 18) 30 18)
def rlogBaseStore (v : Nat) : Dword := dw (putFld (fld v 63 60) 4 60 + putFld (fld v 47 26) 22 26)
def phaseRingStore (v : Nat) : Dword := dw (putFld (fld v 47 19) 29 19)

/-- The turning, log, ring and coordinator registers (R462, R463). -/
def turnReg (s : State) (off : Nat) : Option Reg :=
  let t := s.turn
  match off with
  | 0x00 => some (regRW s 32 t.ctl.toNat fun v => modTurn s fun t => { t with ctl := turnCtlStore v })
  | 0x04 => some (regRW s 32 t.tblCnt.toNat fun v => modTurn s fun t => { t with tblCnt := w32 (min (fld v 8 0) 256) })
  | 0x08 => some (regRW s 64 t.tblBase.toNat fun v => modTurn s fun t => { t with tblBase := dw (putFld (fld v 47 4) 44 4) })
  | 0x10 => some (regRW s 64 t.slot0.toNat fun v => modTurn s fun t => { t with slot0 := turnSlotStore v })
  | 0x18 => some (regRW s 64 t.slot1.toNat fun v => modTurn s fun t => { t with slot1 := turnSlotStore v })
  | 0x20 => some (regRW s 64 (t.stat.toNat + putBit t.run.isSome 15) fun v => modTurn s fun t => { t with stat := dw (clears t.stat.toNat v 0x2C00) })
  | 0x28 => some (regRW s 64 t.rlogBase.toNat fun v => modTurn s fun t => { t with rlogBase := rlogBaseStore v })
  | 0x30 => some (regRW s 64 t.phaseRing.toNat fun v => modTurn s fun t => { t with phaseRing := phaseRingStore v })
  | 0x38 => some (regRW s 64 t.coordCtl.toNat fun v => modTurn s fun t => { t with coordCtl := dw (putFld (fld v 63 16) 48 16) })
  | 0x40 => some (regRW s 64 t.coordTime.toNat fun v => modTurn s fun t => { t with coordTime := dw v })
  | 0x48 => some (regRO s 64 t.coordStat.toNat)
  | _ =>
    if 0x10000 ≤ off && off < 0x110000 then phaseReg s ((off - 0x10000) / 0x1000) (off % 0x1000) else none

/-! ### Meter record port (R574) -/

/-- The meter's state (R571): 0 sealed, 1 absent, 2 sealed-fault, 3 service. -/
def meterState (m : Meter) : Nat := if !m.present || m.silent then 1 else if m.fault then 2 else if m.service then 3 else 0

/-- The record port. The certificate's bytes are the meter's own; a write into the service window is rejected outside service
mode, and where it names a reserved OPC in the window's first byte (R572; DESIGN CHOICE, log entry 139). -/
def meterReg (s : State) (off : Nat) : Option Reg :=
  let m := s.meter
  let word (bs : Bytes) (i : Nat) : Nat := if meterState m = 1 then 0 else wordAt bs i
  match off with
  | 0x00 => some (regRW s 64
      (putFld m.tamper.toNat 16 48 + putFld m.calVer.toNat 32 16 + putBit m.cmdRej 3 + putBit m.recNew 2 + putFld (meterState m) 2 0) fun v =>
      modMeter s fun m => { m with cmdRej := m.cmdRej && !bitOf v 3, recNew := m.recNew && !bitOf v 2 })
  | 0x08 => some (regRO s 64 m.head.toNat)
  | 0x10 => some (regRO s 64 m.nonce.toNat)
  | _ =>
    if off % 8 != 0 then none
    else if 0x1000 ≤ off && off < 0x3000 then some (regRO s 64 (word Config.meterCert (off - 0x1000)))
    else if 0x10000 ≤ off && off < 0x20000 then
      some (regRW s 64 (if off = 0x10000 && meterState m == 3 then m.calResult.toNat else 0) fun v =>
        let known := off ≠ 0x10000 || (decide (1 ≤ v % 256) && decide (v % 256 ≤ 5))
        if meterState m = 3 && known then s else modMeter s fun m => { m with cmdRej := true })
    else if 0x1000000 ≤ off && off < 0x2000000 then
      let o := off - 0x1000000
      some (regRO s 64 (word (mget m.ring [] (o / 0x10000)) (o % 0x10000)))
    else none

/-! ### The whole space -/

/-- Whether a block is mapped (R32). -/
def blockMapped (b : Nat) : Bool :=
  b ≤ 4 || b == 8 || (0x10 ≤ b && b ≤ 0x1B) || (0x20 ≤ b && b ≤ 0x24) || b == 0x28 || b == 0x30 || b == 0x31

/-- The register that begins at an address; none where the address is reserved (R33). -/
def csrReg (s : State) (a : Nat) : Option Reg :=
  let o := csrOff a
  match csrBlock a with
  | 0x00 => if o < 0x1000 then hubReg s o else hubTable s o
  | 0x01 => vatReg s 0 o
  | 0x02 => vatReg s 1 o
  | 0x03 => vatReg s 2 o
  | 0x04 => vatReg s 3 o
  | 0x08 => if o < 0x4000000 then bellReg s (o / 0x1000) (o % 0x1000) else none
  | 0x20 => hoopReg s o
  | 0x21 => if o < 0x100000 then ladleReg s (o / 0x1000) (o % 0x1000) else none
  | 0x22 => caveReg s o
  | 0x23 => if o < 0x2000 then ethReg s (o / 0x1000) (o % 0x1000) else none
  | 0x24 => if o < 0x4000 then pcieReg s (o / 0x1000) (o % 0x1000) else none
  | 0x28 => turnReg s o
  | 0x31 => meterReg s o
  | b => if 0x10 ≤ b && b ≤ 0x1B then portReg s (b - 0x10) o else none

/-- Offsets of the hub common block that the program reads (R276, R286, R371, R504, R528, R545, R559, R573,
R611, R612). -/
def hubOpen (off : Nat) : Bool :=
  [0x218, 0x300, 0x400, 0x418, 0x510, 0x600, 0x700, 0x718, 0x800, 0x808, 0x810, 0x900, 0xA00, 0xA08].any (fun o => o ≤ off && off < o + 8) &&
    !(off / 4 == 0x21C / 4 || off / 4 == 0x304 / 4 || off / 4 == 0x41C / 4 || off / 4 == 0x814 / 4) ||
  (0x620 ≤ off && off < 0x640)

/-- Whether an agent may make an access at an address (R33): the rind anywhere that is mapped, the program of
a core to the pages and registers that their chapters open to it. -/
def csrOpen (s : State) (who : Agent) (a : Nat) (wr : Bool) : Bool :=
  let b := csrBlock a
  let o := csrOff a
  regionOf a == .csr && blockMapped b &&
  match who with
  | .rind => true
  | .client _ => b == 8 && bellOpen s who (o / 0x1000) && (if wr then o % 0x1000 == 0 || o % 0x1000 == 0x10 else o % 0x1000 == 8)
  | .program c =>
    match b with
    | 0x00 => !wr && hubOpen o
    | 0x08 => bellOpen s who (o / 0x1000)
    | 0x20 => o / 0x1000 == 0x10 + c || (!wr && ((0x38 ≤ o && o < 0x3C) || (0x40 ≤ o && o < 0x48)))
    | 0x21 => o / 0x1000 == c
    | 0x23 => !wr && o < 0x2000
    | 0x24 => !wr && o < 0x4000
    | 0x28 => o / 0x1000 == 0x10 + c || (!wr && ((0x20 ≤ o && o < 0x28) || (0x48 ≤ o && o < 0x50)))
    | _ =>
      b == 1 + c / 64 && o / 0x1000000 == c % 64 && 0x40 ≤ o % 0x1000000 / 0x1000 && o % 0x1000000 / 0x1000 ≤ 0x45

/-- Whether an access of `n` bytes has the width and alignment of a register, or is one that a reserved
address takes (R614). -/
def csrFits (s : State) (a n : Nat) : Bool :=
  match csrReg s a with
  | some r => r.width == 8 * n
  | none =>
    let inside := match csrReg s (a - 4) with | some r => a % 8 == 4 && r.width == 64 | none => false
    (n == 4 || n == 8) && a % n == 0 && !inside

/-- What an access meets: nothing, or ADDRESS_FAULT (R30, R33, R614). -/
def csrOk (s : State) (who : Agent) (a n : Nat) (wr : Bool) : Bool := csrOpen s who a wr && csrFits s a n

/-- A read: the value returned and the state after it. -/
def csrRead (s : State) (a : Nat) : Nat × State :=
  match csrReg s a with
  | some r => (r.val % 2 ^ r.width, r.after)
  | none => (0, s)

/-- The core one of whose press pages holds an address (R96, R133, R275). -/
def pressPage (a : Nat) : Option Nat :=
  let b := csrBlock a
  let o := csrOff a
  if 1 ≤ b && b ≤ 4 && o < 0x40000000 && [0x40, 0x41, 0x44].contains (o % 0x1000000 / 0x1000) then
    some (64 * (b - 1) + o / 0x1000000)
  else none

/-- A write; none where it waits (R303, R422, R459, R539). A write to a page of a press wakes it (R541). -/
def csrWrite (s : State) (a v : Nat) : Option State :=
  let s := if csrBlock a = 8 && csrOff a < 0x4000000 then renewLease s (csrOff a / 0x1000) else s
  let s := match pressPage a with | some c => pressWake s c | none => s
  match csrReg s a with
  | some r => r.put (v % 2 ^ r.width)
  | none => some s

/-- What a write that waits asks for: the channels that a store to SEG_REPLAY reads (R283). -/
def csrAsk (s : State) (a v : Nat) : State :=
  if csrBlock a = 0x28 && 0x10000 ≤ csrOff a && csrOff a < 0x110000 && csrOff a % 0x1000 == 0x18 then
    askWakes s (segParts s ((csrOff a - 0x10000) / 0x1000) (fld v 7 0))
  else s

/-- REGISTER_WRITE (R13, R33, R614): a write by an agent; a width of `width` bytes. -/
def execRegisterWrite (who : Agent) (addr width : Nat) (v : Dword) (s : State) : Res :=
  .next (
    if csrOk s who addr width true then (csrWrite s addr v.toNat).getD (csrAsk s addr v.toNat)
    else agentRefused s who)

/-- READ_OBJ_DROP (R504). -/
def execReadObjDrop (s : State) : Res := .next (readReg (modObj s fun o => { o with drop := 0 }) s.obj.drop)

/-- READ_INTEG_CORR (R559). -/
def execReadIntegCorr (s : State) : Res := .next (readReg (modTriage s fun t => { t with corr := 0 }) s.triage.corr)

/-- READ_INTEG_UNCORR (R559). -/
def execReadIntegUncorr (s : State) : Res := .next (readReg (modTriage s fun t => { t with uncorr := 0 }) s.triage.uncorr)

/-- READ_ETH_CNT (R594). -/
def execReadEthCnt (p : Nat) (s : State) : Res :=
  onUnit 2 p (.next (readReg (modEth s p fun e => { e with cnt := 0 }) (mget s.eths {} p).cnt))

/-- READ_PCIE_LERR (R594). -/
def execReadPcieLerr (l : Nat) (s : State) : Res :=
  onUnit 4 l (.next (readReg (modPcie s l fun x => { x with lerr := 0 }) (mget s.pcies {} l).lerr))

end Sys2Proof.Machine
end

