-- ==== Sys2Proof/Machine/Job.lean ====
section
/-! DEFINITION. The job: JOB_JOIN (R486), JOB_CONFIG with its kinds (R485), bucket slots (R382), turning regions
(R426) and client-assisted decisions (R38). -/

namespace Sys2Proof.Machine

/-! ### The turning region table (R426) -/

/-- Granules that a range touches, by number from address 0. -/
def rangeGranules (a n : Nat) : List Nat :=
  if n = 0 then [] else (List.range ((a + n - 1) / granule + 1 - a / granule)).map fun i => a / granule + i

/-- Granules of the hoop state: state records, error memories and ripening stores of open buckets (R420). -/
def hoopGranules (s : State) : List Nat :=
  let cnt := s.hoop.bktCnt.toNat
  let of (b : Nat) : List Nat :=
    let e := bucketOf s b
    if !e.isOpen then []
    else (if e.thin then rangeGranules e.err (256 * e.blocks) else []) ++ rangeGranules e.ripe (132 * e.blocks * e.ripenMax)
  rangeGranules s.hoop.stateBase.toNat (64 * cnt) ++ (List.range cnt).flatMap of

/-- Runs of granules, from granule numbers in ascending order. -/
def granuleRuns : List Nat → List (Nat × Nat)
  | [] => []
  | g :: gs =>
    match granuleRuns gs with
    | (a, n) :: rs => if a = (g + 1) * granule then (g * granule, n + granule) :: rs else (g * granule, granule) :: (a, n) :: rs
    | [] => [(g * granule, granule)]

/-- The table in force: the client's regions, then the hoop state that they do not hold. -/
def wholeTable (s : State) (client : List (Nat × Nat)) : List (Nat × Nat) :=
  let gs := (hoopGranules s).foldl kput []
  client ++ granuleRuns (gs.filter fun g => !hits client (g * granule) granule)

/-- A turning region table put in place; both dirty bitmaps are set in full, as their granules are numbered anew. -/
def putTable (s : State) (client : List (Nat × Nat)) : State :=
  let t := wholeTable s client
  let base := s.hoop.stateBase.toNat + 0x400000
  let s := memPut s base (t.flatMap fun r => wordsB [r.1, r.2])
  modTurn s fun u =>
    { u with
      client := client, tblBase := BitVec.ofNat 64 base, tblCnt := BitVec.ofNat 32 t.length, full0 := true, full1 := true }

/-- Whether regions are whole granules in HBM or the cave and none meets another (R426). -/
def regionsOk (rs : List (Nat × Nat)) : Bool :=
  rs.all (fun r => r.1 % granule == 0 && r.2 % granule == 0 && inTiers r.1 r.2) &&
    rs.Pairwise fun a b => !(a.1 < b.1 + b.2 && b.1 < a.1 + a.2)

/-! ### JOB_JOIN (R486) -/

/-- A join record as read: its first words and its lists. -/
structure JoinRec where
  job : Nat
  epoch : Nat
  duty : Nat
  coord : List Nat
  ext : Nat
  /-- Members: node, twin and position; idle spares. -/
  members : List (Nat × Nat × Nat)
  spares : List Nat
  deriving DecidableEq, Repr

/-- The join record at an address. -/
def joinRec (s : State) (a : Nat) : JoinRec :=
  let w (i : Nat) : Nat := rdNum s (a + i) 8
  let n := fld (w 8) 63 48
  { job := fld (w 0) 63 48, epoch := fld (w 0) 31 0, duty := fld (w 8) 15 0
    coord := (List.range 4).map fun i => fld (w 0x10) (16 * i + 15) (16 * i)
    ext := fld (w 0x18) 14 0
    members := (List.range n).map fun i => let m := w (0x40 + 8 * i); (fld m 63 48, fld m 47 32, fld m 14 0)
    spares := (List.range (fld (w 8) 47 32)).map fun i => fld (w (0x40 + 8 * n + 8 * i)) 63 48 }

/-- Extents of a GRID field in X, Y and Z. -/
def extents (ext : Nat) : Nat × Nat × Nat := (fld ext 4 0 + 1, fld ext 9 5 + 1, fld ext 14 10 + 1)

/-- Whether the grid and the members of a record fit: every position of the grid held by exactly one (R486). -/
def gridOk (r : JoinRec) : Bool :=
  let e := extents r.ext
  let inGrid (p : Nat) : Bool := decide (fld p 4 0 < e.1) && decide (fld p 9 5 < e.2.1) && decide (fld p 14 10 < e.2.2)
  decide (e.2.2 ≤ 16) && decide (r.spares.length ≤ 256) && r.members.length == e.1 * e.2.1 * e.2.2 &&
    r.members.all (fun m => inGrid m.2.2) && (r.members.map (·.2.2)).Nodup

/-- The duty fields that all modules of a job share: bucket matching, rescale, detour (R37). -/
def sharedDuty (w : Nat) : Nat := fld w 7 2

/-- The module takes up a join record (R37, R363, R387, R440, R486): its place in the job, the coordinators, and
the change of tables that follows under a drain. A module that left this job by a warm start comes back as an idle spare,
whatever the record names it (R456). -/
def takeUp (s : State) (r : JoinRec) (sess fence : Nat) (me : Option (Nat × Nat × Nat)) : State :=
  let own := ownNode s
  let back := s.turn.left == some r.job
  let me := if back then none else me
  let spares := if back && !r.spares.contains own then r.spares ++ [own] else r.spares
  let c0 := r.coord.headD 0
  let c1 := r.coord.getD 1 0
  let pos := match me with | some m => m.2.2 | none => 0
  let twin := match me with | some m => m.2.1 | none => 0
  let role := match me with | none => 3 | some _ => if own = c0 then 2 else if own = c1 then 1 else 0
  let cands := ((r.coord.drop 2).filter fun n => r.members.any fun m => m.1 == n).eraseDups
  let ring := match me with | some _ => ringRegs r.members r.ext pos | none => (BitVec.ofNat 64 r.ext, 0, 0)
  let s := modObj s fun o => { o with job := some (r.job, sess, BitVec.ofNat 32 fence), members := r.members }
  let s := modTurn s fun t =>
    { t with
      coordCtl := BitVec.ofNat 64 (putFld c0 16 48 + putFld c1 16 32 + putFld twin 16 16)
      coordStat := BitVec.ofNat 64 (putFld role 2 30)
      cands := cands, spares := spares, spareCopy := none, spareWait := false, mirrorFrom := 0
      left := if back then t.left else none, restoring := false, cultures := []
      rejoin := if back then some (r.epoch, lastStep s) else none
      beats := r.members.map fun m => { node := m.1, tick := now s, turns := [], mirrors := [] }
      lastBeat := now s, decide := none, ready := [], mirrored := none, accepted := none, lost := false, parts := []
      lastPoint := none }
  let s := modHoop s fun h => { h with closed := [], closing := [] }
  let s := { s with cores := s.cores.map fun kv => (kv.1, { kv.2 with phase := { kv.2.phase with cur := none, fwd := none } }) }
  modFab s fun f => { f with change := some { fmap := [], aliases := [], epoch := BitVec.ofNat 32 r.epoch, ring := some ring } }

/-- Whether a session may make JOB_JOIN (R526). -/
def mayJoin (s : State) (sess : Nat) : Bool := match sess? s sess with | some k => bitOf k.rights.toNat 1 | none => false

/-- JOB_JOIN (R486). A job that a HALT decision has stopped does not keep the module (R444); an unfit module
stays out of every job (R550). -/
def execJobJoin (q : Nat) (s : State) : Res := onRind s <|
  admin s q 0x2B fun s x c =>
    if !mayJoin s x.sess || s.triage.unfit then refuse s .notPermitted
    else if s.obj.job.isSome && !bitOf s.turn.coordStat.toNat 29 then refuse s .busy
    else
      let w := eBody c.entry 0
      match recordAt s x w 64 with
      | (_, some st) => refuse s st
      | (a, none) =>
        let head := rdNum s (a + 8) 8
        match recordAt s x w (64 + 8 * fld head 63 48 + 8 * fld head 47 32) with
        | (_, some st) => refuse s st
        | (_, none) =>
          let r := joinRec s a
          let own := ownNode s
          let me := r.members.find? fun m => m.1 == own
          let fence := bHandle c.entry 8
          if !gridOk r || (me.isNone && !r.spares.contains own) then refuse s .descInvalid
          else if sharedDuty r.duty ≠ sharedDuty (dutyWord s) then refuse s .modeMismatch
          else if !fenceHeld s x fence then refuse s .handleInvalid
          else (takeUp s r x.sess fence me, .ok, r.job)

/-! ### JOB_CONFIG (R485) -/

/-- KIND of a JOB_CONFIG body. -/
def jobKind (e : Bytes) : Nat := fld (eBody e 0) 7 0

/-- A JOB_CONFIG command of a set of kinds, from the controlling session (R485). -/
def jobConfig (s : State) (q : Nat) (mine : Nat → Bool) (run : State → Queue → Cmd → AdminEnd) : Res :=
  adminCmd s q 0x2C (fun e => mine (jobKind e)) fun s x c =>
    if controls s x.sess then run s x c else refuse s .notPermitted

/-- Addresses that SET_REG reaches besides PRESS_CO_CTL (R485). -/
def setRegs : List Nat :=
  [0x0F0000000200, 0x0F0000000208, 0x0F0000000210, 0x0F2800000000, 0x0F2800000010, 0x0F2800000018, 0x0F2800000028, 0x0F2800000030]

/-- Address of PRESS_CO_CTL of a core (R133). -/
def coCtlAddr (c : Nat) : Nat := 0x0F0100000000 + c / 64 * 0x100000000 + c % 64 * 0x1000000 + 0x41008

/-- Cores that the job's contexts name. -/
def jobCores (s : State) : List Nat :=
  let all := (s.obj.ctxs.filter fun kv => isJobCtx s kv.1).foldl (fun m kv => m ||| kv.2.cores) (0 : BitVec 256)
  bitsOf 256 all.toNat

/-- SET_REG (R485); a reserved KIND is refused here. -/
def execSetReg (q : Nat) (s : State) : Res := onRind s <|
  jobConfig s q (fun k => k == 1 || k == 0 || decide (5 < k)) fun s _ c =>
    let a := eBody c.entry 8
    let v := eBody c.entry 0x10
    if jobKind c.entry ≠ 1 then refuse s .descInvalid
    else if setRegs.contains a then ((csrWrite s a v).getD s, .ok, 0)
    else if (List.range 256).any fun k => coCtlAddr k == a then
      ((jobCores s).foldl (fun s k => pressPut s k (none, BitVec.ofNat 32 v)) s, .ok, 0)
    else refuse s .notPermitted

/-- A bucket ID of a body, up to 65,535. -/
def bodyBucket (c : Cmd) : Option Nat := if eBody c.entry 8 < 65536 then some (eBody c.entry 8) else none

/-- Whether an entry image may be opened (R381, R382): its encodings, its regions and their places. -/
def imageOk (s : State) (bs : Bytes) : Bool :=
  let e := bucketIn bs
  let w := wordAt bs 0
  let tier (a n : Nat) : Bool :=
    a % 4 == 0 && inTiers a (max n 1) && (memCheck s a 1).isNone && (memCheck s (a + (max n 1 - 1)) 1).isNone
  let n := 132 * e.blocks
  fld w 7 0 == 1 && decide (fld w 9 8 < 2) && decide (e.sgrp ≤ 24) && tier e.src n && tier e.dst n && tier e.ripe (n * e.ripenMax) &&
    (!e.thin || tier e.err (256 * e.blocks)) && (memCheck s e.exp (2 * ceilDiv e.blocks (2 ^ e.sgrp))).isNone

/-- Whether slot b is within its lateness horizon (R382). -/
def inHorizon (s : State) (b : Nat) : Bool :=
  s.hoop.closed.contains b && decide (jobStep s ≤ recNum s b 0x18 6 + (bucketOf s b).ripenMax + 1)

/-- A slot opened: generation raised, entry written, state record reset, HOOP_BKT_CNT raised (R382). -/
def openSlot (s : State) (b : Nat) (bs : Bytes) : State × Nat :=
  let gen := ((bucketOf s b).gen + 1) % 256
  let w := mergeBits (wordAt bs 0) (putFld gen 8 32 + 2 ^ 10) (putFld 255 8 32 + 2 ^ 10)
  let s := memWrite s (bktAt s b) (leBytes 8 w ++ bs.drop 8)
  let s := recPut (recPut s b 0 7 (2 ^ 48)) b 0x20 8 0
  let s := (List.range 3).foldl (fun s k => recPut s b (0x2F + 8 * k) 1 0) s
  let s := modHoop s fun h =>
    { h with
      bktCnt := if h.bktCnt.toNat ≤ b then BitVec.ofNat 32 (b + 1) else h.bktCnt
      loaded := kdel h.loaded b, closing := kdel h.closing b, folds := h.folds.filter fun f => f.1 ≠ b }
  (putTable s s.turn.client, gen)

/-- BUCKET_OPEN (R382). The table of a turning that is being copied does not change under it. -/
def execBucketOpen (q : Nat) (s : State) : Res := onRind s <|
  if s.turn.run.isSome then .next s
  else jobConfig s q (fun k => k == 2) fun s x c =>
    match bodyBucket c, recordAt s x (eBody c.entry 0x10) 64 with
    | none, _ => refuse s .descInvalid
    | _, (_, some st) => refuse s st
    | some b, (a, none) =>
      let bs := rdBytes s a 64
      if !imageOk s bs then refuse s .descInvalid
      else if slotOpen s b (bucketOf s b).gen || inHorizon s b then refuse s .busy
      else
        let r := openSlot s b bs
        if 256 < r.1.turn.tblCnt.toNat then refuse s .descInvalid else (r.1, .ok, r.2)

/-- BUCKET_CLOSE (R382): the close is asked for; BUCKET_CLOSE_EFFECT brings it about. -/
def execBucketClose (q : Nat) (s : State) : Res := onRind s <|
  jobConfig s q (fun k => k == 3) fun s _ c =>
    match bodyBucket c with
    | none => refuse s .notFound
    | some b =>
      if slotOpen s b (bucketOf s b).gen then (modHoop s fun h => { h with closing := kput h.closing b }, .ok, 0)
      else refuse s .notFound

/-- BUCKET_CLOSE_EFFECT (R382): OPEN clears and CLOSE_STEP is recorded; messages held for the slot are dropped
as those of a closed slot (R411). -/
def execBucketCloseEffect (b : Nat) (s : State) : Res := onHub s <|
  .next (
    if !s.hoop.closing.contains b || (bstep? s b).isSome then s
    else
      let s := memWrite s (bktAt s b) (leBytes 8 (mergeBits (hubNum s (bktAt s b) 8) 0 (2 ^ 10)))
      let s := recPut s b 0x18 6 (curStep s b)
      let held := s.hoop.matchB.filter fun m => rBkt m.2 == b
      let s := modHoop s fun h =>
        { h with
          closing := kdel h.closing b, closed := kput h.closed b, loaded := kdel h.loaded b, early := mdel h.early b
          matchB := h.matchB.filter fun m => rBkt m.2 != b }
      held.foldl (fun s _ => hoopDrop s 48) s)

/-- TURN_REGIONS (R426). The table of a turning that is being copied does not change under it. -/
def execTurnRegions (q : Nat) (s : State) : Res := onRind s <|
  if s.turn.run.isSome then .next s
  else jobConfig s q (fun k => k == 4) fun s x c =>
    let n := eBody c.entry 0x10
    if 256 < n then refuse s .descInvalid
    else match recordAt s x (eBody c.entry 8) (16 * n) with
      | (_, some st) => refuse s st
      | (a, none) =>
        let rs := (List.range n).map fun i => (fld (rdNum s (a + 16 * i) 8) 47 0, fld (rdNum s (a + 16 * i + 8) 8) 47 0)
        if !regionsOk rs || 256 < (wholeTable s rs).length then refuse s .descInvalid else (putTable s rs, .ok, 0)

/-- DECISION_POST (R485): the posted list replaces the earlier one of the function. -/
def execDecisionPost (q : Nat) (s : State) : Res := onRind s <|
  jobConfig s q (fun k => k == 5) fun s x c =>
    let fn := eBody c.entry 8
    let w := eBody c.entry 0x10
    let h := bHandle c.entry 0x18
    if !([0, 3, 4, 6].contains fn) || dutyMode s fn ≠ 2 then refuse s .descInvalid
    else match recordAt s x w 4 with
      | (_, some st) => refuse s st
      | (_, none) =>
      match (resolve s .fence h).bind (fence? s) with
      | none => refuse s .handleInvalid
      | some f =>
        let base := f.value
        let p : Post := { fn := fn, obj := handleIdx .memory (fld w 63 32), off := fld w 31 0, fence := BitVec.ofNat 32 h, base := base }
        (modObj s fun o => { o with posts := (o.posts.filter fun y => y.fn ≠ fn) ++ [p] }, .ok, 0)

/-! ### Deadlines of client-assisted decisions (R38) -/

/-- Whether the client's decision has arrived while its lease runs: the list names a queue or a victim, or the fence is
signalled. -/
def decided (s : State) (fn : Nat) : Bool :=
  !controllerGone s &&
  match fn with
  | 0 =>
    (s.obj.queues.any fun kv =>
      match kv.2.ctx, startable s kv.2 with
      | some _, some c => decide (2 ≤ (rivals s kv.1 c).length) && mayGo s kv.1 (rivals s kv.1 c)
      | _, _ => false) ||
    [true, false].any fun b => slotContend s b && (slotWaiters s b).any fun kv => mayGo s kv.1 (slotWaiters s b)
  | 3 => postDone s 3
  | 4 => [true, false].any fun b => slotNeeded s b && (evictable s b).any fun e => mayEvict s b e.1
  | 6 => postDone s 6
  | _ => false

/-- DECISION_DEADLINE_EXPIRY (R38): the rind takes one decision of a client-assisted function. -/
def execDecisionDeadlineExpiry (f : Nat) (s : State) : Res := onRind s <|
  .next (
    match mget? s.obj.contend f with
    | none => s
    | some t =>
      let late := decide (dutyDeadline s f ≤ subMod 64 (now s) t)
      if dutyMode s f ≠ 2 || decided s f || !(late || controllerGone s) then s
      else
        let s := setFallback s f
        if f = 3 then
          let s := modObj s fun o => { o with contend := mdel o.contend 3 }
          modFab s fun x => { x with rcache := routeCache s, cacheWait := false }
        else modObj s fun o => { o with rindTurn := kput o.rindTurn f, contend := mdel o.contend f })

end Sys2Proof.Machine
end

