-- ==== Sys2Proof/Machine/Meter.lean ====
section
/-! DEFINITION. The hub's activity channel and the sealed meter (R560 to R574). -/

namespace Sys2Proof.Machine

/-! ### Flash as it reads (R507) -/

/-- Flash bytes: an erased byte reads 0xFF (R507). -/
def flashB (s : State) (a n : Nat) : Bytes := (List.range n).map fun i => mget s.start.flash 0xFF (a + i)

/-- Module serial number, from the identity certificate. -/
def serialOf (s : State) : Nat := leVal (flashB s Config.dirSerial 8)

/-! ### The hub's totals and frames (R561, R563 to R565) -/

/-- Two counts of 64 bits added. -/
def add64 (a b : Nat) : Nat := (a + b) % 2 ^ 64

/-- The residency units of a period per tenant: 64 KiB units of every LIVE or FREEING object (R561). -/
def addResidency (t : Map Totals) (m : MemObj) : Map Totals :=
  let x := mget t {} m.tenant
  let y := match regionOf m.base with
    | .hbm => { x with hbm := add64 x.hbm m.len }
    | .cave => { x with cave := add64 x.cave m.len }
    | _ => { x with dsm := add64 x.dsm m.len }
  mput t m.tenant y

/-- Tenants of the cores whose press loads a tile or runs a descriptor. -/
def busyTenants (s : State) : List Nat :=
  (s.cores.filterMap fun kv =>
    if kv.2.press.shadow.isSome || !kv.2.press.runs.isEmpty then coreTenant s kv.1 else none).foldl kput []

/-- Totals with the press cycles of the tenants whose descriptors have run since the last frame. Press cycles are times of a
clock that the model does not count: each such total rises by a free value (R560, log entry 2). -/
def addPress (t : Map Totals) (s : State) : Map Totals × State :=
  s.meter.ran.foldl
    (fun ts i =>
      let x := mget ts.1 {} i
      (mput ts.1 i { x with press := add64 x.press (freeVal ts.2) }, drawn ts.2)) (t, s)

/-- The hub's totals at the end of a period, with the residency of the objects that stand and of those reclaimed in it. -/
def periodTotals (s : State) : Map Totals × State :=
  addPress ((s.obj.mems.map Prod.snd ++ s.meter.left).foldl addResidency s.meter.totals) s

/-- A frame of the activity channel (R563, R564). -/
def frameB (gen seq periods : Nat) (early final : Bool) (es : List (Nat × Totals)) : Bytes :=
  let head := wordsB [putFld gen 16 48 + putFld es.length 16 32 + putFld seq 32 0, periods, putBit early 2 + putBit final 1]
  let body := head ++ es.flatMap fun e => wordsB [putFld e.1 10 0, e.2.press, e.2.hbm, e.2.cave, e.2.dsm]
  body ++ leBytes 4 (crc32c body)

/-- ACTIVITY_FRAME (R563, R565): a period of 10,000,000 reference ticks has ended. The frame names every tenant
whose totals have changed in this period or one of the seven before. -/
def execActivityFrame (s : State) : Res := onHub s <|
  .next (
    if s.start.mode != .normal || subMod 64 (now s) s.meter.periodFrom < 10000000 then s
    else
      let old := s.meter.totals
      let r := periodTotals s
      let s := r.2
      let age (t : Nat × Totals) : Nat := if t.2 == mget old {} t.1 then mget s.meter.quiet 8 t.1 + 1 else 0
      let quiet := (r.1.map fun t => (t.1, age t)).filter fun x => x.2 < 8
      let es := r.1.filter fun t => (mget? quiet t.1).isSome
      let m := s.meter
      let early := s.start.stage == 3 || m.hubEarly
      let s := modMeter s fun m =>
        { m with
          totals := r.1
          quiet := quiet
          hubEarly := false
          ran := busyTenants s
          left := []
          txSeq := BitVec.ofNat 32 m.frames
          nent := BitVec.ofNat 11 es.length
          frames := m.frames + 1
          periodFrom := (m.periodFrom + 10000000) % 2 ^ 64 }
      emit s (.frame (frameB m.gen.toNat m.frames (m.frames + 1) early false es)))

/-- The final frame of a warm-start entry, sent three times (R565). It carries the press cycles since the last frame; the
period that has not ended charges no residency (R561; DESIGN CHOICE, log entry 138). -/
def finalFrame (s : State) : State :=
  let r := addPress s.meter.totals s
  let s := modMeter r.2 fun m => { m with totals := r.1, ran := [] }
  let m := s.meter
  let es := m.totals.filter fun t => t.2 != {}
  let b := frameB m.gen.toNat m.frames m.frames (s.start.stage == 3 || m.hubEarly) true es
  let s := modMeter s fun m => { m with txSeq := BitVec.ofNat 32 m.frames, nent := BitVec.ofNat 11 es.length, frames := m.frames + 1 }
  emit (emit (emit s (.frame b)) (.frame b)) (.frame b)

/-- The hub's part of the meter state at a start: a new generation, totals from 0. A start resets CMD_REJ and
REC_NEW (R563, R574). -/
def meterStart (m : Meter) (t : Nat) : Meter :=
  { m with
    txSeq := 0
    gen := m.gen + 1
    nent := 0
    frames := 0
    periodFrom := t
    totals := []
    quiet := []
    hubEarly := false
    ran := []
    left := []
    cmdRej := false
    recNew := false }

/-! ### The meter takes frames (R566) -/

/-- The entries of a frame. -/
def frameEntries (f : Bytes) (n : Nat) : List (Nat × Totals) :=
  (List.range n).map fun i =>
    let w (j : Nat) : Nat := wordAt f (0x18 + 40 * i + 8 * j)
    (fld (w 0) 9 0, { press := w 1, hbm := w 2, cave := w 3, dsm := w 4 })

/-- Whether the frame has its length, a good CRC and ascending tenants (R566). -/
def frameOk (f : Bytes) : Bool :=
  let n := fld (wordAt f 0) 47 32
  let len := 0x18 + 40 * n
  n ≤ 1024 && f.length == len + 4 && leVal (sliceB f len 4) == crc32c (f.take len) &&
    ((frameEntries f n).map Prod.fst).Pairwise (· < ·)

/-- METER_FRAME_ACCEPT (R566): accepted in SEQ order within a generation; a repeat is ignored. A gap is the number of frames
missed, as the example of R574 counts it. A value of GEN that comes again is a generation of its own (R569). -/
def execMeterFrameAccept (frame : Bytes) (s : State) : Res :=
  .next (
    let m := s.meter
    let gen := fld (wordAt frame 0) 63 48
    let seq := fld (wordAt frame 0) 31 0
    let newGen := match m.last with | some (g, _) => g != gen | none => true
    let fresh := newGen || (match m.last with | some (_, q) => decide (q < seq) | none => true)
    if !m.powered || (meterState m != 0 && meterState m != 3) || !frameOk frame || !fresh then s
    else
      let es := frameEntries frame (fld (wordAt frame 0) 47 32)
      let fin := bitOf (wordAt frame 0x10) 1
      let lost := match m.last with | some (_, q) => if newGen then 0 else seq - q - 1 - 8 | none => 0
      let era := if newGen then m.era + 1 else m.era
      modMeter s fun m =>
        { m with
          last := some (gen, seq)
          era := era
          acc := es.foldl (fun a e => mput a (1024 * era + e.1) e.2) m.acc
          gaps := m.gaps + lost
          gens := kput m.gens era
          early := m.early || bitOf (wordAt frame 0x10) 2
          got := m.got + 1
          restarted := m.restarted || (newGen && m.last.isSome)
          miss := m.miss || (newGen && m.last.isSome && !m.final)
          final := if newGen then fin else m.final || fin })

/-! ### Intervals and records (R567 to R570) -/

/-- The increment of one total. -/
def subTotals (a b : Totals) : Totals :=
  { press := subMod 64 a.press b.press, hbm := subMod 64 a.hbm b.hbm, cave := subMod 64 a.cave b.cave, dsm := subMod 64 a.dsm b.dsm }
def sumTotals (a b : Totals) : Totals :=
  { press := add64 a.press b.press, hbm := add64 a.hbm b.hbm, cave := add64 a.cave b.cave, dsm := add64 a.dsm b.dsm }

/-- The increments of the interval per tenant, none of them zero (R569). -/
def increments (m : Meter) : List (Nat × Totals) :=
  let es := m.acc.filter fun kv => m.gens.contains (kv.1 / 1024)
  let t := es.foldl
    (fun (t : Map Totals) kv => mput t (kv.1 % 1024) (sumTotals (mget t {} (kv.1 % 1024)) (subTotals kv.2 (mget m.base {} kv.1)))) []
  t.filter fun kv => kv.2 != {}

/-- FLAGS of a record (R568, R569). -/
def recFlags (m : Meter) (service power : Bool) : Nat :=
  putBit service 0 + putBit power 1 + putBit (decide (1 < m.gens.length) || m.restarted) 2 + putBit (m.gaps != m.gaps0) 3 +
    putBit m.early 4 + putBit (m.got == 0) 5 + putBit m.miss 6

/-- A reading record (R568). -/
def recordB (m : Meter) (serial tick energy : Nat) (service power : Bool) : Bytes :=
  let es := increments m
  let body :=
    leBytes 4 0x544D5844 ++ leBytes 2 1 ++ leBytes 2 (recFlags m service power) ++ leBytes 8 (m.head.toNat + 1) ++
    leBytes 8 serial ++ leBytes 8 m.tStart ++ leBytes 8 tick ++ leBytes 8 m.eStart ++ leBytes 8 energy ++
    leBytes 4 m.calVer.toNat ++ leBytes 4 m.tamper.toNat ++ leBytes 4 (m.gaps - m.gaps0) ++ leBytes 2 es.length ++
    List.replicate 58 0 ++ es.flatMap fun e => wordsB [putFld e.1 10 0, e.2.press, e.2.hbm, e.2.cave, e.2.dsm]
  body ++ padB 7856 (Config.slhSign Config.meterSeed body)

/-- The open interval closed with its record (R567, R568, R570). -/
def closeInterval (m : Meter) (serial tick energy : Nat) (service power : Bool) : Meter :=
  let seq := m.head + 1
  { m with
    ring := mput m.ring (seq.toNat % 256) (recordB m serial tick energy service power)
    head := seq
    recNew := true
    isOpen := false
    gaps0 := m.gaps
    restarted := false }

/-- A new interval opened (R567, R569): its bases are the totals of the generation in force accepted before it. -/
def openInterval (m : Meter) (tick energy : Nat) : Meter :=
  let acc := m.acc.filter fun kv => kv.1 / 1024 == m.era
  { m with isOpen := true, tStart := tick, eStart := energy, acc := acc, base := acc, gens := [], early := false, got := 0, miss := false }

/-- Meter clock ticks of an interval. -/
def intervalTicks (m : Meter) : Nat := m.interval * 50000000

/-- INTERVAL_CLOSE (R567, R568): the interval has lasted INTERVAL seconds, and the next one opens in the same
meter tick. -/
def execIntervalClose (tick energy : Nat) (s : State) : Res :=
  .next (
    let m := s.meter
    if meterState m = 0 && m.powered && m.isOpen && tick == m.tStart + intervalTicks m then
      modMeter s fun m => openInterval (closeInterval m (serialOf s) tick energy false false) tick energy
    else s)

/-- METER_POWER_LOSS (R567): the instant of the loss is kept. -/
def execMeterPowerLoss (tick energy : Nat) (s : State) : Res :=
  .next (if s.meter.powered then modMeter s fun m => { m with powered := false, lossAt := some (tick, energy) } else s)

/-- METER_POWER_RETURN (R567, R571, R572): the meter is present and publishes. The interrupted interval is closed at the
moment of loss; then a new one opens, or service mode begins where the service contact is closed. A fault under the seal
stays (DEDUCED, log entry 139). -/
def execMeterPowerReturn (tick energy : Nat) (s : State) : Res :=
  .next (
    if s.meter.powered then s
    else
      modMeter s fun m =>
        let m := { m with powered := true, present := true, silent := false, service := m.contact, exitReq := false }
        let at_ := m.lossAt.getD (tick, energy)
        if m.fault then m
        else
          let m := if m.isOpen then closeInterval m (serialOf s) at_.1 at_.2 false true else m
          if m.contact then m else openInterval m tick energy)

/-- A record with its SERVICE flag set and the count of seal openings in it, signed again (R568). -/
def withService (r : Bytes) (tamper : Nat) : Bytes :=
  let n := r.length - 7856
  let body := r.take 6 ++ [r.getD 6 0 ||| 1] ++ sliceB r 7 0x35 ++ leBytes 4 tamper ++ sliceB r 0x40 (n - 0x40)
  body ++ padB 7856 (Config.slhSign Config.meterSeed body)

/-- Whether the newest record closed in this meter tick, in which the open interval opened: then it is the one record of
a scheduled close and a service entry that meet (R567). -/
def closedNow (m : Meter) (tick : Nat) : Bool :=
  m.isOpen && m.tStart == tick &&
    match mget? m.ring (m.head.toNat % 256) with | some r => wordAt r 0x20 == tick | none => false

/-- SERVICE_CONTACT_CLOSE (R567, R571, R572): every closing is counted, also of a meter that cannot enter service then
(DESIGN CHOICE, log entry 139). Under the seal a meter in sealed-fault enters service too; its interval has no record. -/
def execServiceContactClose (tick energy : Nat) (s : State) : Res :=
  .next (
    if s.meter.contact then s
    else
      modMeter s fun m =>
        let m := { m with contact := true, tamper := m.tamper + 1 }
        if !m.powered then m
        else
          let m :=
            if meterState m ≠ 0 || !m.isOpen then m
            else if closedNow m tick then
              { m with
                ring := mput m.ring (m.head.toNat % 256) (withService (mget m.ring [] (m.head.toNat % 256)) m.tamper.toNat) }
            else closeInterval m (serialOf s) tick energy true false
          { m with service := true, fault := false, isOpen := false, exitReq := false })

/-- Service mode left: a new interval opens (R572). -/
def leaveService (m : Meter) (tick energy : Nat) : Meter := openInterval { m with service := false, exitReq := false } tick energy

/-- SERVICE_CONTACT_OPEN (R572): an accepted EXIT takes effect. -/
def execServiceContactOpen (tick energy : Nat) (s : State) : Res :=
  .next (
    if !s.meter.contact then s
    else
      modMeter s fun m =>
        let m := { m with contact := false }
        if m.powered && m.service && m.exitReq then leaveService m tick energy else m)

/-- METER_ABSENT (R571): the presence contact is open, or the meter's status has stopped. -/
def execMeterAbsent (contactOpen : Bool) (s : State) : Res :=
  .next (modMeter s fun m => if contactOpen then { m with present := false } else { m with silent := true })

/-- METER_SEALED_FAULT (R571): a failed self-check, or a breach while the service contact is open. The interval in
progress has no record. -/
def execMeterSealedFault (breach : Bool) (s : State) : Res :=
  .next (
    let m := s.meter
    if m.powered && (meterState m == 0 || meterState m == 3) && !(breach && m.contact) then
      modMeter s fun m => { m with fault := true, service := false, exitReq := false, isOpen := false }
    else s)

/-! ### Sealed service mode (R572) -/

/-- The bytes that a service command signs: OPC, SERIAL, NONCE, its arguments and its image. -/
def cmdBytes (opc : Nat) (c : MeterCmd) : Bytes :=
  [BitVec.ofNat 8 opc] ++ wordsB [c.serial.toNat, c.nonce.toNat, c.arg.toNat, c.off.toNat] ++ c.img

/-- Whether a service command is accepted. -/
def cmdOk (s : State) (opc : Nat) (c : MeterCmd) : Bool :=
  meterState s.meter == 3 && s.meter.powered && sha256 c.pub == Config.metrologyHash && Config.slhVerify c.pub (cmdBytes opc c) c.sig &&
    c.serial.toNat == serialOf s && c.nonce == s.meter.nonce + 1

/-- A service command performed, or rejected with CMD_REJ. -/
def service (s : State) (opc : Nat) (c : MeterCmd) (ok : Bool) (f : Meter → Meter) : Res :=
  .next (
    if cmdOk s opc c && ok then modMeter s fun m => { f m with nonce := c.nonce }
    else modMeter s fun m => { m with cmdRej := true })

/-- SET_CAL: gain and offset. -/
def execSetCal (m : MeterCmd) (s : State) : Res :=
  service s 1 m true fun x => { x with gain := m.arg, offset := m.off, calVer := x.calVer + 1 }

/-- SET_INTERVAL: 60 to 3,600 seconds. -/
def execSetInterval (m : MeterCmd) (s : State) : Res :=
  service s 2 m (decide (60 ≤ m.arg.toNat) && decide (m.arg.toNat ≤ 3600)) fun x => { x with interval := m.arg.toNat }

/-- The reference-load check run: its result is what the meter measures, a free value (log entry 2). -/
def runCalCheck (s : State) : State :=
  let v := BitVec.ofNat 64 (freeVal s)
  modMeter (drawn s) fun x => { x with calResult := v }

/-- CAL_CHECK. -/
def execCalCheck (m : MeterCmd) (s : State) : Res :=
  .next (
    if cmdOk s 3 m then modMeter (runCalCheck s) fun x => { x with nonce := m.nonce }
    else modMeter s fun x => { x with cmdRej := true })

/-- FW_UPDATE: the signed image replaces the firmware. -/
def execFwUpdate (m : MeterCmd) (s : State) : Res :=
  service s 4 m (Config.meterImageOk m.img) fun x => { x with fw := m.img, calVer := x.calVer + 1 }

/-- METER_EXIT: takes effect once the service contact is open again; where it is open already, at once, at an instant of the
meter's own clock (free values, log entry 2). -/
def execMeterExit (m : MeterCmd) (s : State) : Res :=
  if s.meter.contact || !cmdOk s 5 m then service s 5 m true fun x => { x with exitReq := true }
  else .next (modMeter (drawn (drawn s)) fun x => leaveService { x with nonce := m.nonce } (freeVal s) (freeVal (drawn s)))

end Sys2Proof.Machine
end

