-- ==== Sys2Proof/Machine/Sessions.lean ====
section
/-! DEFINITION. The service Ethernet ports (R576, R577, R594), sessions and leases (R466, R467, R498, R499, R579,
R580) and RDMA (R328, R495). -/

namespace Sys2Proof.Machine

/-! ### Ports and queue pairs -/

/-- Whether the service port of a queue pair works: its link is up and the module is in early or full service
(R518, R594). -/
def svcUp (s : State) (n : Nat) : Bool :=
  (mget s.eths {} (n / 4096)).link == 2 && (s.start.stage == 3 || s.start.stage == 4) && s.start.mode == .normal

/-- A connected queue pair that is not in the error state, on a port that works. -/
def qp? (s : State) (n : Nat) : Option Qp :=
  if svcUp s n then (mget? s.obj.qps n).filter fun q => !q.error else none

/-- QP_OPEN of ETH_PSTAT brought up to date (R594). -/
def countQps (s : State) (p : Nat) : State :=
  modEth s p fun e => { e with open_ := (s.obj.qps.filter fun kv => kv.1 / 4096 == p).length }

/-- A queue pair connected or taken away. -/
def putQp (s : State) (n : Nat) (q : Qp) : State := countQps (modObj s fun o => { o with qps := mput o.qps n q }) (n / 4096)
def dropQp (s : State) (n : Nat) : State := countQps (modObj s fun o => { o with qps := mdel o.qps n }) (n / 4096)

/-- The queue pair out of its session's list; the session stays open (R579). -/
def leaveSession (s : State) (n : Nat) : State :=
  match (mget? s.obj.qps n).bind (·.sess) with
  | some i => modSess s i fun k => { k with qps := k.qps.filter fun x => x ≠ n }
  | none => s

/-- What the management port serves (R582). -/
inductive Served where
  | nothing | recovery | configWait | all
  deriving DecidableEq, Repr

/-- The state of the management port: rennet opens it in recovery service, the rind in RIND_UP (R512, R517). In scan
hold it stays (R591). -/
def served (s : State) : Served :=
  match s.start.mode with
  | .recovery => .recovery
  | .scanHold => .all
  | .normal => if s.start.stage == 5 then .configWait else if s.start.stage.toNat < 2 then .nothing else .all
  | _ => .nothing

/-- A channel disconnected by the module. -/
def disconnect (s : State) (ch : Chan) : State :=
  match ch with
  | .qp n => transmit (dropQp (leaveSession s n) n) n (.disconnect ch)
  | .tcp n => emit (modObj s fun o => { o with conns := mdel o.conns n }) (.disconnect ch)

/-- A message of R580 to a channel. -/
def sendMsg (s : State) (ch : Chan) (ty : Nat) (body : Bytes) : State :=
  match ch with
  | .qp n => transmit s n (.send n ty body)
  | .tcp n => emit s (.mgmt (some n) ty body)

/-- RESULT (R580): status, session handle and ticket. -/
def sendResult (s : State) (ch : Chan) (st : Status) (handle : Nat) (ticket : Bytes) : State :=
  sendMsg s ch 4 (leBytes 2 st.code ++ leBytes 2 0 ++ leBytes 4 handle ++ padB 16 ticket)

/-- A RESULT that opens nothing. -/
def refuseResult (s : State) (ch : Chan) (st : Status) : State := sendResult s ch st 0 []

/-- The acknowledgement of a SEND on a queue pair. -/
def ackSend (s : State) (ch : Chan) : State := match ch with | .qp n => transmit s n (.ack n) | .tcp _ => s

/-! ### Addresses in force (R575, R582, R584) -/

/-- NET of the configuration in force. -/
def netCfg (s : State) : Net := match s.start.cfg with | some f => f.net | none => {}

/-- The MAC address of a port, from the identity certificate: service ports 0 and 1, and the management port as 2 (R575). -/
def macOf (s : State) (p : Nat) : Bytes := flashB s (Config.dirMac p) 6

/-- The IPv6 link-local address of a MAC address: fe80::/64 and its modified EUI-64 (PRESUMED, log entry 140). -/
def linkLocal6 (m : Bytes) : Bytes :=
  [0xFE, 0x80, 0, 0, 0, 0, 0, 0, m.getD 0 0 ^^^ 2, m.getD 1 0, m.getD 2 0, 0xFF, 0xFE, m.getD 3 0, m.getD 4 0, m.getD 5 0]

/-- The NET addresses of a port; all zeros is none (R584). -/
def netIps (s : State) (p : Nat) : List Bytes :=
  [(netCfg s).ip6.getD p [], (netCfg s).ip4.getD p []].filter fun a => a.any fun x => x != 0

/-- Whether an address is one of a service port: a NET address, its link-local address, or an IPv6 multicast address. -/
def ipForPort (s : State) (p : Nat) (a : Bytes) : Bool :=
  (netIps s p).contains a || (a.length == 16 && a.getD 0 0 == 0xFF) || a == linkLocal6 (macOf s p)

/-- The addresses of the management port in force (R582). -/
def mgmtIps (s : State) : List Bytes :=
  let own := linkLocal6 (macOf s 2)
  match served s with
  | .nothing => []
  | .all => netIps s 2 ++ [own]
  | _ => [own, [169, 254, Config.linkLocal4.1, Config.linkLocal4.2]]

/-- Whether two addresses agree in their first `n` bits. -/
def samePrefix (a b : Bytes) (n : Nat) : Bool :=
  (List.range n).all fun i => bitOf (a.getD (i / 8) 0).toNat (7 - i % 8) == bitOf (b.getD (i / 8) 0).toNat (7 - i % 8)

/-- The next hop of a service port to an address: itself within the prefix, else the IPv4 gateway or the first default router
learned (R584). -/
def nextHop (s : State) (p : Nat) (a : Bytes) : Bytes :=
  let n := netCfg s
  if a.length = 4 then if samePrefix (n.ip4.getD p []) a (n.plen4.getD 0 0) then a else n.gw4.getD 0 []
  else if samePrefix (n.ip6.getD p []) a (n.plen6.getD 0 0) then a else (mget s.eths {} p).routers.headD a

/-! ### Frames at a service port (R575, R576) -/

/-- Whether a frame is for this port: no longer than the MTU of 9,216 bytes, to its MAC address or a group address, in its
VLAN, and, but for ARP, to an IP address of its own (DESIGN CHOICE, log entry 140). -/
def forPort (s : State) (p : Nat) (f : EthFrame) : Bool :=
  decide (f.len ≤ 9216) && f.vlan.toNat == (netCfg s).vlan.getD p 0 && ((f.dst.getD 0 0).getLsbD 0 || f.dst == macOf s p) &&
    (f.proto == .arp || ipForPort s p f.ip)

/-- The CNP for a packet with CE set, at most one per queue pair every 5,000 reference ticks, whether the queue pair is
connected or not (R576). -/
def sendCnp (s : State) (p n : Nat) : State :=
  let e := mget s.eths {} p
  let due := match mget? e.cnps n with | none => true | some t => decide (5000 ≤ subMod 64 (now s) t)
  if !due then s
  else transmit (modEth s p fun e => { e with cnps := mput e.cnps n (now s) }) (4096 * p) (.cnp n (netCfg s).cnpDscp)

/-- ETH_FRAME_RECEIVE (R576, R577): a bad FCS, a protocol that the ports do not carry and a frame for another are counted and
dropped. A RoCEv2 packet acts on a queue pair of its own port. -/
def execEthFrameReceive (p : Nat) (f : EthFrame) (s : State) : Res := onHub s <|
  onUnit 2 p (.next (
    if (mget s.eths {} p).link ≠ 2 then s
    else if !f.fcsOk then modEth s p fun e => { e with cnt := bump16 e.cnt 48 1 }
    else if f.proto == .other || !forPort s p f then modEth s p fun e => { e with cnt := bump16 e.cnt 0 1 }
    else match f.proto with
      | .routerAdvert r isDefault =>
        modEth s p fun e =>
          let rest := e.routers.filter fun x => x ≠ r
          { e with routers := if !isDefault then rest else if e.routers.contains r then e.routers else rest ++ [r] }
      | .roce n ce ok =>
        if !svcUp s (4096 * p) then s
        else
          let s := if ce then sendCnp s p n else s
          if ok || n / 4096 ≠ p || (qp? s n).isNone then s else nakQp s n .invalid
      | _ => s))

/-- The packets that waited for the end of a pause sent. -/
def resume (s : State) (p : Nat) : State :=
  let e := mget s.eths {} p
  e.txq.foldl emit (modEth s p fun e => { e with pause := none, txq := [] })

/-- PFC_PAUSE_RECEIVE (R576): a pause on the lossless priority that the configuration names holds the port's RoCEv2 packets
for its quanta of 512 bit times, at 8,000 bit times to a reference tick; one of no quanta ends it. -/
def execPfcPauseReceive (p : Nat) (f : PfcFrame) (s : State) : Res := onHub s <|
  onUnit 2 p (.next (
    if (mget s.eths {} p).link == 2 && (netCfg s).pfcOn && (netCfg s).pfcPrio == f.prio then
      let s := modEth s p fun e => { e with pfcRx := true }
      if f.quanta = 0 then resume s p
      else modEth s p fun e => { e with pause := some (now s, ceilDiv (512 * f.quanta.toNat) 8000) }
    else s))

/-- ETH_LINK_UP and ETH_LINK_DOWN (R594). -/
def execEthLinkUp (p : Nat) (s : State) : Res :=
  onUnit 2 p (.next (if s.start.mode == .normal then modEth s p fun e => { e with link := 2 } else s))
def execEthLinkDown (p : Nat) (s : State) : Res :=
  onUnit 2 p (.next (modEth s p fun e => { e with link := 0, pause := none, txq := [] }))

/-! ### Sessions (R466, R498, R499, R579, R580) -/

/-- Whether a CM REQ asks for what the module supports: a reliable connection, its path MTUs, at most 16 outstanding RDMA
READ and atomic operations (R577). -/
def cmFits (r : CmRequest) : Bool := r.transport == .rc && [1024, 2048, 4096].contains r.mtu && decide (r.resources ≤ 16)

/-- The session that the private data of a REQ joins: a handle with its ticket, and room for one queue pair more (R579). -/
def cmSession (s : State) (priv : Bytes) : Option Nat :=
  (resolve s .session (leVal (sliceB priv 0 4))).bind fun i =>
    (sess? s i).bind fun k => if priv.length < 20 || sliceB priv 4 16 ≠ k.ticket || 16 ≤ k.qps.length then none else some i

/-- CM_REQ (R577, R579): empty private data connects a bootstrap queue pair; otherwise its first 20 bytes hold a
session handle and a ticket. A session has at most 16 queue pairs. -/
def execCmReq (qp : Nat) (r : CmRequest) (s : State) : Res := onRind s <|
  onUnit 8192 qp (.next (
    if !svcUp s qp then s
    else if (mget? s.obj.qps qp).isSome || !cmFits r then transmit s qp (.cmRej qp)
    else
      let p := qp / 4096
      let q : Qp :=
        { sess := none, since := now s, hello := none, error := false, mtu := r.mtu, peer := r.peer, hop := nextHop s p r.peer,
          vlan := (netCfg s).vlan.getD p 0, dscp := (netCfg s).dscp }
      if r.priv.all (· = 0) then transmit (putQp s qp q) qp (.cmRep qp)
      else match cmSession s r.priv with
        | none => transmit s qp (.cmRej qp)
        | some i =>
          let s := modSess s i fun k => { k with qps := k.qps ++ [qp] }
          transmit (putQp s qp { q with sess := some i }) qp (.cmRep qp)))

/-- CM_DREQ (R577, R579): the queue pair goes, its session stays. -/
def execCmDreq (qp : Nat) (s : State) : Res := onRind s <|
  onUnit 8192 qp (.next (
    if svcUp s qp && (mget? s.obj.qps qp).isSome then transmit (dropQp (leaveSession s qp) qp) qp (.cmDrep qp) else s))

/-- What a channel holds of a handshake: whether it may run one, and the HELLO that is pending. Recovery service and
configuration wait serve none on a management connection (R512, R582). -/
def handshake? (s : State) (ch : Chan) : Option (Bool × Option (Bytes × Dword × Bytes)) :=
  match ch with
  | .qp n => (qp? s n).map fun q => (q.sess.isNone && !q.closed, q.hello)
  | .tcp n => if served s == .all then (mget? s.obj.conns n).map fun c => (true, c.hello) else none

/-- The pending HELLO of a channel set or cleared. -/
def setHello (s : State) (ch : Chan) (h : Option (Bytes × Dword × Bytes)) : State :=
  match ch with
  | .qp n => modQp s n fun q => { q with hello := h }
  | .tcp n =>
    match mget? s.obj.conns n with
    | some c => modObj s fun o => { o with conns := mput o.conns n { c with hello := h } }
    | none => s

/-- The next random value (R526, R580), and the state after it has been drawn. -/
def nonceOf (s : State) : Bytes := Config.nonce s.obj.nonces
def nonceTaken (s : State) : State := modObj s fun o => { o with nonces := o.nonces + 1 }

/-- A HELLO (R579, R580): CHALLENGE, or DESC_INVALID while another is pending. -/
def doHello (s : State) (ch : Chan) (pub : Bytes) (params : Dword) : State :=
  match handshake? s ch with
  | none => s
  | some (fresh, pending) =>
    let s := ackSend s ch
    if !fresh || pending.isSome then refuseResult s ch .descInvalid
    else
      let n := padB 32 (nonceOf s)
      sendMsg (nonceTaken (setHello s ch (some (pub, params, n)))) ch 2 n

/-- HELLO. -/
def execHello (ch : Chan) (pub : Bytes) (params : Dword) (s : State) : Res := onRind s <| .next (doHello s ch pub params)

/-- The client entry of a public key: its index and rights (R526). -/
def clientOf (s : State) (pub : Bytes) : Option (Nat × BitVec 3) :=
  match s.start.cfg with
  | none => none
  | some f =>
    let d := sha256 pub
    ((f.clients.zip (List.range f.clients.length)).find? fun x => x.1.1 == d).map fun x => (x.2, x.1.2)

/-- Whether the rind places the admin rings of a session where R476 lets a ring lie, clear of every object. -/
def ringPlaced (s : State) (r : AdminRing) : Bool :=
  let clear (a n : Nat) : Bool :=
    decide (a + n ≤ 0x030000000000) && s.obj.mems.all fun kv => decide (a + n ≤ kv.2.base) || decide (kv.2.base + kv.2.len * 65536 ≤ a)
  decide (4 ≤ r.k) && decide (r.k ≤ 16) && r.ring % 128 == 0 && r.cpl % 16 == 0 && clear r.ring (128 * 2 ^ r.k) && clear r.cpl (16 * 2 ^ r.k)

/-- A session opened with its admin queue on a bootstrap queue pair (R466, R579). -/
def openSession (s : State) (n i j client : Nat) (rights : BitVec 3) (r : AdminRing) : State :=
  let sg := nextGen s .session i
  let qg := nextGen s .queue j
  let t := padB 16 (nonceOf s)
  let q : Queue :=
    { state := 2, gen := qg, k := r.k, prio := 0, ctx := none, sess := i, ring := r.ring, cpl := r.cpl, ri := 0, adm := 0,
      started := 0, cmds := [], bell := none, slot := false, stamp := 0 }
  let k : Session := { gen := sg, client := client, rights := rights, renewed := now s, admin := j, ticket := t, qps := [n] }
  let s := nonceTaken (takeIdx (takeIdx s .session i) .queue j)
  let s := modObj s fun o => { o with sess := mput o.sess i k, queues := mput o.queues j q }
  let s := modQp s n fun q => { q with sess := some i, hello := none }
  sendResult s (.qp n) .ok (handleOf .session sg i) t

/-- PROOF on a channel whose HELLO is pending (R466, R526, R580). Over TCP it authenticates the connection (R583). -/
def doProof (s : State) (ch : Chan) (h : Bytes × Dword × Bytes) (sig : Bytes) (r : AdminRing) : State :=
  let fail (st : Status) : State := disconnect (refuseResult (ackSend s ch) ch st) ch
  match clientOf s h.1 with
  | none => fail .notPermitted
  | some (client, have_) =>
    let rights := BitVec.ofNat 3 h.2.1.toNat &&& have_
    if !Config.slhVerify h.1 (h.2.2 ++ leBytes 8 h.2.1.toNat) sig then fail .notPermitted
    else match ch with
      | .tcp n =>
        let s := setHello s ch none
        match mget? s.obj.conns n with
        | some c => refuseResult (modObj s fun o => { o with conns := mput o.conns n { c with rights := rights } }) ch .ok
        | none => s
      | .qp n =>
        if !bitOf have_.toNat 0 then fail .notPermitted
        else if 1024 ≤ s.obj.sess.length then fail .noResource
        else match nextIdx s .session, nextIdx s .queue with
          | some i, some j => openSession (ackSend s ch) n i j client rights r
          | _, _ => fail .noResource

/-- PROOF; `r` is where the rind places the admin rings of a session that opens. -/
def execProof (ch : Chan) (sig : Bytes) (r : AdminRing) (s : State) : Res := onRind s <|
  .next (
    match handshake? s ch with
    | none => s
    | some (fresh, pending) =>
      match fresh, pending with
      | true, some h => if ringPlaced s r then doProof s ch h sig r else s
      | _, _ => refuseResult (ackSend s ch) ch .descInvalid)

/-- The end of a session (R466, R498, R499): its contexts are lost with OWNER_LOST and destroyed with their
queues and holds, its admin queue goes, its ticket with it; its queue pairs stay connected without a key (R502, log
entry 20). -/
def endSession (s : State) (i : Nat) : State :=
  match sess? s i with
  | none => s
  | some k =>
    let ctxs := (s.obj.ctxs.filter fun kv => kv.2.sess == i).map Prod.fst
    let s := ctxs.foldl (fun s c => loseContext s c .ownerLost none none) s
    let s := ctxs.foldl (fun s c => destroyCtx s c) s
    let s := destroyQueue s k.admin
    let s := k.qps.foldl (fun s n => modQp s n fun q => { q with sess := none, closed := true }) s
    quarantine (modObj s fun o => { o with sess := mdel o.sess i }) .session i

/-- CLOSE on a queue pair (R579): on a bootstrap queue pair there is nothing to close. -/
def doClose (s : State) (qp : Nat) : State :=
  match qp? s qp with
  | none => s
  | some q =>
    let s := ackSend s (.qp qp)
    match q.sess with
    | some i => endSession s i
    | none => refuseResult s (.qp qp) .descInvalid

/-- CLOSE. -/
def execClose (qp : Nat) (s : State) : Res := onRind s <| onUnit 8192 qp (.next (doClose s qp))

/-- HANDSHAKE_TIMEOUT (R579): 100,000,000 reference ticks from the REQ. -/
def execHandshakeTimeout (ch : Chan) (s : State) : Res := onRind s <|
  .next (
    let late (t : Nat) : Bool := decide (100000000 ≤ subMod 64 (now s) t)
    match ch with
    | .qp n =>
      match mget? s.obj.qps n with
      | some q => if q.sess.isNone && !q.closed && late q.since then disconnect s ch else s
      | none => s
    | .tcp n =>
      match mget? s.obj.conns n with
      | some c => if c.hello.isSome && late c.since then disconnect s ch else s
      | none => s)

/-- LEASE_EXPIRY (R467): 200,000,000 reference ticks from the last renewal. -/
def execLeaseExpiry (sess : Nat) (s : State) : Res := onRind s <|
  onUnit 1024 sess (.next (
    match sess? s sess with
    | some k => if 200000000 ≤ subMod 64 (now s) k.renewed then endSession s sess else s
    | none => s))

/-! ### RDMA (R328, R495, R577) -/

/-- Whether the contexts of a session hold a memory object (R495). -/
def sessHolds (s : State) (i m : Nat) : Bool := s.obj.ctxs.any fun kv => kv.2.sess == i && kv.2.mems.contains m

/-- Whether `n` bytes lie within a range. -/
def within (a n base len : Nat) : Bool := decide (base ≤ a) && decide (a + n ≤ base + len)

/-- Whether the session's own admin rings hold a range, under the session handle as key (log entry 20). The
completion ring is read only. -/
def adminRange (s : State) (i : Nat) (key a n bit : Nat) : Bool :=
  resolve s .session key == some i &&
    match (sess? s i).bind fun k => queue? s k.admin with
    | some q => (bit != 2 && within a n q.ring (128 * 2 ^ q.k)) || (bit == 0 && within a n q.cpl (16 * 2 ^ q.k))
    | none => false

/-- Whether an RDMA operation on memory is allowed: `bit` 0 read, 1 write, 2 atomic (R287, R495). -/
def rdmaOk (s : State) (q : Qp) (key a n bit : Nat) : Bool :=
  match q.sess with
  | none => false
  | some i =>
    (memCheck s a n).isNone &&
      (adminRange s i key a n bit ||
        match resolve s .memory key with
        | none => false
        | some m =>
          match mem? s m with
          | none => false
          | some o => o.state == 1 && sessHolds s i m && within a n o.base (o.len * 65536) && bitOf o.rdma.toNat bit)

/-- Whether a key and an address name a register of the doorbell page of a queue that the queue pair reaches (R495). -/
def rdmaBell (s : State) (qp key a n : Nat) (wr : Bool) : Bool :=
  match resolve s .queue key with
  | some q => a / 0x1000 == 0x0F0800000000 / 0x1000 + q && csrOk s (.client qp) a n wr
  | none => false

/-- An RDMA operation on a queue pair that works. -/
def onQp (s : State) (qp : Nat) (run : Qp → State) : Res :=
  onUnit 8192 qp (.next (match qp? s qp with | none => s | some q => run q))

/-- Blocks of the WRITE at the head of a queue pair performed, in no fixed order, where memory takes them; once none is left
the WRITE is acknowledged. The Bool says so (R140, R283, R307, R328, R429). -/
def performBlocks (s : State) (qp : Nat) (bs : List HeldWrite) : State × Bool :=
  let ps := landNow s bs
  let r := ps.1.foldl
    (fun (r : State × List HeldWrite) b =>
      if writeWaits r.1 b.addr b.data.length then (askRoom r.1 b.addr b.data.length, r.2 ++ [b])
      else (memPut r.1 b.addr b.data, r.2)) (drawn s, ps.2)
  if r.2.isEmpty then (transmit (modQp r.1 qp fun q => { q with blocks := none }) qp (.ack qp), true)
  else (modQp r.1 qp fun q => { q with blocks := some r.2 }, false)

/-- A WRITE at the head of its queue pair (R328, R495). -/
def serveWrite (s : State) (qp : Nat) (q : Qp) (key : Word) (addr : Nat) (data : Bytes) : State × Bool :=
  let n := data.length
  match q.blocks with
  | some bs => performBlocks s qp bs
  | none =>
    if 2 ^ 31 < n then (nakQp s qp .invalid, true)
    else if fld key.toNat 31 28 = 2 then
      if rdmaBell s qp key.toNat addr n true then
        match csrWrite s addr (leVal data) with
        | some t => (transmit t qp (.ack qp), true)
        | none => (s, false)
      else (nakQp s qp .access, true)
    else if !rdmaOk s q key.toNat addr n 1 then (nakQp s qp .access, true)
    else performBlocks s qp (writeBlocks addr data)

/-- A READ at the head of its queue pair (R328, R495); poison, in memory or in the transfer that carries the data, gives a
remote operational error (R296). -/
def serveRead (s : State) (qp : Nat) (q : Qp) (key : Word) (addr len : Nat) : State × Bool :=
  if 2 ^ 31 < len then (nakQp s qp .invalid, true)
  else if fld key.toNat 31 28 = 2 then
    if rdmaBell s qp key.toNat addr len false then
      let r := csrRead s addr
      (transmit r.2 qp (.readData qp (leBytes 8 r.1)), true)
    else (nakQp s qp .access, true)
  else if !rdmaOk s q key.toNat addr len 0 then (nakQp s qp .access, true)
  else if asleep s addr len then (askWake s addr len, false)
  else if isBad s addr len then (nakQp (poisonMet s (badAt s addr len) 0 none) qp .operational, true)
  else if q.bad then (nakQp (modQp s qp fun q => { q with bad := false }) qp .operational, true)
  else (transmit s qp (.readData qp (rdBytes s addr len)), true)

/-- A RoCEv2 atomic on 8 bytes at the head of its queue pair (R168, R577): `f` gives the value to store, if any. -/
def serveAtomic (s : State) (qp : Nat) (q : Qp) (key : Word) (addr : Nat) (f : Nat → Option Nat) : State × Bool :=
  if addr % 8 ≠ 0 then (nakQp s qp .invalid, true)
  else if !rdmaOk s q key.toNat addr 8 2 then (nakQp s qp .access, true)
  else if asleep s addr 8 then (askWake s addr 8, false)
  else if isBad s addr 8 then (nakQp (poisonMet s (badAt s addr 8) 0 none) qp .operational, true)
  else
    let old := rdNum s addr 8
    let reply (s : State) : State :=
      if q.bad then nakQp (modQp s qp fun q => { q with bad := false }) qp .operational
      else transmit s qp (.atomicOld qp (BitVec.ofNat 64 old))
    match f old with
    | none => (reply s, true)
    | some v => if writeHeld s addr 8 then (raiseUrgent s addr 8, false) else (reply (memPutNum s addr 8 v), true)

/-- The request at the head of a queue pair: the state after it, and whether it is complete. -/
def serveHead (s : State) (qp : Nat) (q : Qp) (r : RdmaReq) : State × Bool :=
  match r with
  | .write key addr data => serveWrite s qp q key addr data
  | .read key addr len => serveRead s qp q key addr len
  | .swap key addr cmp v => serveAtomic s qp q key addr fun old => if old = cmp.toNat then some v.toNat else none
  | .add key addr v => serveAtomic s qp q key addr fun old => some ((old + v.toNat) % 2 ^ 64)

/-- The requests of a queue pair taken in message order until one has to wait (R328). -/
def serveQpN : Nat → State → Nat → State
  | 0, s, _ => s
  | fuel + 1, s, qp =>
    match qp? s qp with
    | none => s
    | some q =>
      match q.reqs with
      | [] => s
      | r :: _ =>
        let x := serveHead s qp q r
        if x.2 then serveQpN fuel (modQp x.1 qp fun q => { q with reqs := q.reqs.drop 1 }) qp else x.1

/-- The requests that wait on every queue pair taken up again. -/
def serveQps (s : State) : State :=
  (s.obj.qps.filter fun kv => !kv.2.reqs.isEmpty).foldl (fun s kv => serveQpN kv.2.reqs.length s kv.1) s

/-- Whether a request takes a responder resource: a READ or an atomic (R577). -/
def takesResource : RdmaReq → Bool
  | .write _ _ _ => false
  | _ => true

/-- An RDMA request that arrives on a queue pair: it is served at once, or waits behind the requests before it (R328). A 17th
READ or atomic outstanding is an invalid request (R577; PRESUMED, log entry 53). -/
def takeReq (s : State) (qp : Nat) (r : RdmaReq) : Res :=
  onQp s qp fun q =>
    if takesResource r && decide (16 ≤ (q.reqs.filter takesResource).length) then nakQp s qp .invalid
    else if q.reqs.isEmpty then
      let x := serveHead s qp q r
      if x.2 then x.1 else modQp x.1 qp fun q => { q with reqs := [r] }
    else serveQpN (q.reqs.length + 1) (modQp s qp fun q => { q with reqs := q.reqs ++ [r] }) qp

/-- RDMA_WRITE (R328, R495): acknowledged once performed. -/
def execRdmaWrite (qp : Nat) (key : Word) (addr : Nat) (data : Bytes) (s : State) : Res := onHub s <| takeReq s qp (.write key addr data)

/-- RDMA_READ (R328, R495). -/
def execRdmaRead (qp : Nat) (key : Word) (addr len : Nat) (s : State) : Res := onHub s <| takeReq s qp (.read key addr len)

/-- COMPARE_AND_SWAP (R577). -/
def execCompareAndSwap (qp : Nat) (key : Word) (addr : Nat) (cmp swap : Dword) (s : State) : Res := onHub s <| takeReq s qp (.swap key addr cmp swap)

/-- FETCH_AND_ADD (R577). -/
def execFetchAndAdd (qp : Nat) (key : Word) (addr : Nat) (add : Dword) (s : State) : Res := onHub s <| takeReq s qp (.add key addr add)

/-- RDMA_SEND (R577, R580): a message by its header. A PROOF is handled by PROOF, which knows where the rings go;
a reserved TYPE, or a body of another length, gives DESC_INVALID. -/
def execRdmaSend (qp : Nat) (msg : Bytes) (s : State) : Res := onHub s <|
  onQp s qp fun q =>
    let ty := (msg.getD 0 0).toNat
    let len := leVal (sliceB msg 4 4)
    let body := msg.drop 8
    let bad : State := refuseResult (ackSend s (.qp qp)) (.qp qp) .descInvalid
    if 2 ^ 31 < msg.length then nakQp s qp .invalid
    else if len ≠ body.length then bad
    else match ty with
      | 1 => if len = 40 then doHello s (.qp qp) (body.take 32) (BitVec.ofNat 64 (wordAt body 32)) else bad
      | 3 => if q.sess.isNone && !q.closed && q.hello.isSome && len == 7856 then s else bad
      | 5 => if len = 0 then doClose s qp else bad
      | _ => bad

end Sys2Proof.Machine
end

