-- ==== Sys2Proof/Machine/SelfTests.lean ====
section
/-! DEFINITION. Self-tests during work (R527): requests from the management port or fault triage, and their runs. -/

namespace Sys2Proof.Machine

/-- A result goes to the requester and to the fault log (R549, R557): DETAIL0 holds the logical and the physical
core, or the port, DETAIL1 whether it passed. -/
def testResult (s : State) (source unit : Nat) (d0 : Nat) (pass : Bool) : State :=
  attn (emit s (.selftest unit pass))
    { cls := 0x10, source := source, unit := unit, d0 := BitVec.ofNat 64 d0, d1 := BitVec.ofNat 64 pass.toNat }

/-- The result of a test of a physical core on behalf of logical core c. -/
def coreResult (s : State) (c phys : Nat) (pass : Bool) : State :=
  testResult s (1 + c / 64) c (c + 256 * phys) pass

/-- A test that runs at once: whether it passes is a free value (log entry 2). -/
def drawPass (s : State) : Bool × State := (freeVal s % 2 == 1, drawn s)

/-- A test of a core (R527). -/
def coreTest (s : State) (conn : Option Nat) (t : SelfTest) (c : Nat) : State × Status :=
  let k := coreOf s c
  let inJob := match k.ctx with | some i => isJobCtx s i | none => false
  if 256 ≤ c then (s, .descInvalid)
  else if 64 ≤ c && !fullService s then (s, .busy)
  else if !inJob then
    let r := drawPass s
    (coreResult r.2 c (physOf s c) r.1, .ok)
  else match k.test with
    | some (_, old) => if old.immediate then (s, .ok) else (s, .selftestDeferred)
    | none =>
      if !t.immediate then (setCore s c { k with test := some (conn, t) }, .selftestDeferred)
      else if (spareCore s (c / 64)).isNone then (s, .busy)
      else (setCore s c { k with test := some (conn, t) }, .ok)

/-- Loopback of a Ruong port whose pair partner is ACTIVE: its traffic fails over, and afterwards it trains from
EQUALIZE (R351, R527). -/
def portTest (s : State) (p : Nat) : State × Status :=
  if 12 ≤ p then (s, .descInvalid)
  else if !portActive s (pairPort p) then (s, .busy)
  else
    let r := drawPass (if (portOf s p).en then startRetrain s p else s)
    (testResult r.2 (0x10 + p) p p r.1, .ok)

/-- A request handled: the state and the status that it returns (R527, R572). -/
def askTest (s : State) (conn : Option Nat) (t : SelfTest) : State × Status :=
  match t.target with
  | .pressBist c => coreTest s conn t c
  | .wheyBist c => coreTest s conn t c
  | .port p => portTest s p
  | .meterCal =>
    if meterState s.meter = 3 && s.meter.powered then
      let r := drawPass (runCalCheck s)
      (testResult r.2 0 0 0 r.1, .ok)
    else (s, .notPermitted)

/-- SELFTEST_RUN (R527): a test of a released physical core, or one in place at the held mark of the core. A
physical core that fails the former is marked in VAT_FAIL; one that passes is an unbound spare. -/
def execSelftestRun (c : Nat) (pass : Bool) (s : State) : Res := onRind s <|
  onCore c (.next (
    match s.tests.find? fun t => t.1 == c with
    | some t =>
      let s := { s with tests := s.tests.erase t }
      let s := if pass then s else { s with vatFail := kput s.vatFail t.2.1 }
      coreResult s c t.2.1 pass
    | none =>
      let k := coreOf s c
      match k.test with
      | some (_, t) =>
        if t.immediate || k.phase.held.isNone || retirePend k then s
        else retryMark (coreResult (setCore s c { k with test := none, stopped := false }) c (physOf s c) pass) c
      | none => s))

end Sys2Proof.Machine
end

