-- ==== Sys2Proof/Machine/Triage.lean ====
section
/-! DEFINITION. Fault triage (R549 to R555) and the fault log in flash (R556 to R558). -/

namespace Sys2Proof.Machine

/-! ### Requests for a start (R520, R523) -/

/-- Whether a start is running: stages 0 to 3 of R517, unless it has come to a stop there with a failure. A failure of
stacks 0 to 5 does not keep stage 2 from going on (R519, R523, R591, log entry 126). -/
def starting (s : State) : Bool :=
  s.start.mode == .normal && decide (s.start.stage.toNat < 4) && (s.start.fail == 0 || (s.start.stage == 2 && s.start.up))

/-- A warm start requested by triage or the watchdog. Before full service the cold sequence runs instead, which
the request then asks for; one that meets a running start is merged into it (R523). -/
def askWarm (s : State) : State :=
  if starting s || s.start.request.isSome || s.start.mode != .normal then s
  else { s with start := { s.start with request := some (s.start.stage != 4) } }

/-! ### Counters and reports (R549 to R551, R559) -/

/-- INTEG_CORR for a corrected error of a memory. -/
def countCorr (s : State) (t : MemTier) : State :=
  let lo := match t with | .hbm => 48 | .cave => 32 | .l1 => 0 | _ => 16
  modTriage s fun x => { x with corr := bump16 x.corr lo 1 }

/-- INTEG_UNCORR: 48 HBM, 32 CAVE, 16 SRAM, 0 FABRIC. -/
def countUncorr (s : State) (lo : Nat) : State := modTriage s fun x => { x with uncorr := bump16 x.uncorr lo 1 }

/-- A REPORT FAULT of this module (R443). -/
def reportFault (s : State) (ents : List Nat := []) : State := sendReport s 3 (logicalNode s) (jobStep s) ents

/-- The module declares itself unfit (R550); its heartbeats stop with UNFIT set. -/
def declareUnfit (s : State) : State :=
  if s.triage.unfit then s
  else modTriage (sendReport s 4 (logicalNode s) (jobStep s)) fun t => { t with unfit := true }

/-- What a recurring fault must name again: address, block, core or bucket (R550). -/
def faultSubject (f : FaultInfo) : Nat :=
  match f.cls with
  | 2 => f.d0.toNat
  | 3 => f.source
  | 5 => f.d0.toNat % 256
  | 7 => f.d0.toNat % 256
  | _ => f.d0.toNat % 65536

/-- Whether a fault recurs in the replay of a step that its first occurrence caused: the replay has begun and has not passed
that step (R550). -/
def recurs (s : State) (f : FaultInfo) : Bool :=
  s.triage.caused.any fun x => x.cls == f.cls && x.subject == faultSubject f && x.replayed && decide (jobStep s ≤ x.step)

/-- A fault that causes a replay kept; those of steps that the job has passed are forgotten (R550). -/
def noteCaused (s : State) (f : FaultInfo) : State :=
  let kept := s.triage.caused.filter fun x => decide (jobStep s ≤ x.step)
  modTriage s fun t => { t with caused := kept ++ [{ cls := f.cls, subject := faultSubject f, step := jobStep s, replayed := false }] }

/-- A fault that asks for a replay: REPORT FAULT, or unfit when it recurs. The action of the record goes with it. -/
def causeReplay (s : State) (f : FaultInfo) : State × Nat :=
  if recurs s f then (declareUnfit s, 6)
  else (noteCaused (reportFault s) f, 2)

/-- Whether the consumer of a poisoned word is a job context: the event names it, or comes from an on-chip memory of a core
that runs one (R551). -/
def jobConsumer (s : State) (f : FaultInfo) : Bool :=
  f.consumer.any (isJobCtx s) ||
    (f.tier == .sram && f.consumer.isNone && decide (f.unit < 256) && (coreOf s f.unit).ctx.any (isJobCtx s))

/-! ### Classes (R549) -/

/-- What a fresh error does to the data at its place (R295, R296): the units of a memory of a core are poisoned, a line of
an L1 is dropped, and data under way carries the poison to its consumer. -/
def poisonPlace (s : State) : ErrPlace → State
  | .acc c u => modCore s c fun k => { k with accBad := kput k.accBad u }
  | .oc c u => modCore s c fun k => { k with ocBad := kput k.ocBad u }
  | .reg c g u => modCore s c fun k => { k with groups := k.groups.map fun kv => if kv.1 = g then (kv.1, { kv.2 with bad := kput kv.2.bad u }) else kv }
  | .l1 c line => modCore s c fun k => { k with l1 := mdel k.l1 line }
  | .press c => modPress s c fun p => { p with parity := !p.runs.isEmpty || p.shadow.isSome }
  | .load c n => modAcc s c n fun a => { a with bad := true }
  | .ladle l => ladleFail s l .memPoison
  | .hoop e => modHoop s fun h => { h with upset := e }
  | .rdma qp => modQp s qp fun q => { q with bad := true }
  | .remote p vc => modPort s p fun q => { q with upset := kput q.upset vc }
  | .mem a => (List.range 8).foldl (fun s i => { s with bad := kput s.bad (unitBase (a / 64 * 64 + 8 * i)) }) s

/-- MEM_CE: counted, by memory for the summary, and against the thresholds of R554. A double-bit error of an L1, which is
never poison, is one of them: the line at its place is dropped (R295). -/
def memCe (s : State) (f : FaultInfo) : State :=
  let s := match f.place with | some (.l1 c line) => poisonPlace s (.l1 c line) | _ => s
  let s := countCorr s f.tier
  let key := (match f.tier with | .hbm => 0 | .cave => 1 | .sram => 2 | .l1 => 3 | .fabric => 4) * 65536 + f.unit
  let s := modTriage s fun t => { t with ce := mput t.ce key (mget t.ce 0 key + 1) }
  match f.tier with
  | .hbm | .cave =>
    let r := tally s (countKey 3 key) 1 4096
    if r.2 then modTriage (addRecord r.1 1 f.source 1 (BitVec.ofNat 64 f.unit) 4096 0) fun t => { t with degraded := true } else r.1
  | .sram =>
    if 256 ≤ f.unit then s
    else
      let r := tally s (countKey 1 (physOf s f.unit)) 1 64
      if r.2 then
        let x := askTest r.1 none { target := .pressBist f.unit, immediate := true }
        if x.2 = .busy then addRecord x.1 1 f.source 1 (BitVec.ofNat 64 f.unit) 64 0 else x.1
      else r.1
  | _ => s

/-- MEM_UE and FABRIC_PAR (R549, R551): the poisoned unit or data where the error is fresh (R296), the dirty bitmaps of a turned region, the report. -/
def memUe (s : State) (f : FaultInfo) : State × Nat :=
  let a := f.d0.toNat
  let lo := if f.cls = 3 then 0 else match f.tier with | .hbm => 48 | .cave => 32 | .fabric => 0 | _ => 16
  let s := countUncorr s lo
  let s := match f.place with | some p => poisonPlace s p | none => s
  let known := f.cls == 2 && f.place.isNone && isMem a
  let s := if known && !f.met then { s with bad := kput s.bad (unitBase a) } else s
  let gs := if known then granulesOf s a 1 else []
  let s := if gs.isEmpty then s else markDirty s gs
  if !gs.isEmpty || jobConsumer s f then causeReplay s f else (s, 1)

/-- PRESS_MISMATCH and WHEY_MISMATCH (R549, R554): DETAIL0 holds the logical and the physical core. -/
def mismatchSeen (s : State) (f : FaultInfo) : State :=
  let s := addRecord s f.cls f.source 1 f.d0 f.d1 f.d2
  let r := tally s (countKey 2 (f.d0.toNat / 256)) 1 16
  if !r.2 then r.1
  else
    let x := askTest r.1 none { target := .pressBist (f.d0.toNat % 256), immediate := true }
    if x.2 = .busy then addRecord x.1 f.cls f.source 1 f.d0 16 0 else x.1

/-- PORT_FAILED: REPORT FAULT with the dead direction of this node in a map entry (R441, R549). -/
def portFailed (s : State) (p : Nat) (f : FaultInfo) : State :=
  let e := putFld (ownNode s) 16 48 + putBit true (41 + dirCode (portDim p) (portNeg p))
  let both := !portActive s p && !portActive s (pairPort p)
  addRecord (if both then reportFault s [e] else reportFault s) 0x0A f.source 2 f.d0 f.d1 f.d2

/-- LINK_FAULT: the port retrains; at the threshold EN is cleared, and it counts as failed (R549, R554). -/
def linkFaultSeen (s : State) (f : FaultInfo) : State :=
  let s := addRecord s 9 f.source 4 f.d0 f.d1 f.d2
  let r := tally s (countKey 5 f.unit) 1 3
  if r.2 then portFailed (writePctl r.1 f.unit (putBit (portOf r.1 f.unit).halfOk 29)) f.unit f else r.1

/-- An event classified, acted on and recorded; no address is kept of a FABRIC_PAR (R549). -/
def classify (s : State) (f : FaultInfo) : State :=
  let rec1 (s : State) (act : Nat) : State := addRecord s f.cls f.source act f.d0 f.d1 f.d2
  match f.cls with
  | 0x01 => memCe s f
  | 0x02 => let r := memUe s f; rec1 r.1 r.2
  | 0x03 => let r := memUe s f; addRecord r.1 3 f.source r.2 0 f.d1 f.d2
  | 0x04 | 0x06 => mismatchSeen s f
  | 0x05 | 0x07 =>
    if recurs s f then rec1 (declareUnfit s) 6
    else rec1 (noteCaused s f) 3
  | 0x08 | 0x0E => let r := causeReplay s f; rec1 r.1 r.2
  | 0x09 => linkFaultSeen s f
  | 0x0A => portFailed s f.unit f
  | 0x0B => rec1 (countUncorr s 16) 1
  | 0x0C | 0x0D => rec1 (askWarm s) 5
  | 0x0F =>
    let unfit := f.d1 = 5 ∨ f.d1 = 6
    rec1 (if unfit then modTriage s fun t => { t with unfit := true } else s) (if unfit then 6 else 1)
  | 0x10 | 0x11 => rec1 s 1
  | _ => match f.place with | some (.hoop e) => poisonPlace s (.hoop e) | _ => s

/-- FAULT_TRIAGE (R549, R555): an event that a block raises now, or the oldest one that waits. -/
def execFaultTriage (f : Option FaultInfo) (s : State) : Res :=
  .next (
    match f with
    | some f => classify s f
    | none =>
      match s.triage.attn with
      | [] => s
      | f :: fs => classify (modTriage s fun t => { t with attn := fs }) f)

/-! ### The log (R556 to R558) -/

/-- THRESHOLD_WINDOW_END (R558): one summary record for each memory that had corrections. -/
def execThresholdWindowEnd (s : State) : Res :=
  .next (
    if subMod 64 (now s) s.triage.windowFrom < hourTicks then s
    else
      let s' := s.triage.ce.foldl
        (fun s kv =>
          let unit := kv.1 % 65536
          let src := match kv.1 / 65536 with
            | 0 => 1 + unit / 6
            | 1 => 0x22
            | 4 => 0
            | _ => if unit < 256 then 1 + unit / 64 else 1 + (unit - 256)
          addRecord s 1 src 0 (BitVec.ofNat 64 kv.1) (BitVec.ofNat 64 kv.2) 0) s
      modTriage s' fun t => { t with ce := [], windowFrom := now s })

/-- The events that wait at a start recorded, so that their records reach flash (R556; DESIGN CHOICE, log entry 137); a
MEM_CE has no record of its own (R558). -/
def recordWaiting (s : State) : State :=
  s.triage.attn.foldl
    (fun s f => if f.cls = 1 then s else addRecord s f.cls f.source (if f.cls = 0x0C ∨ f.cls = 0x0D then 5 else 1) f.d0 f.d1 f.d2)
    s

/-- The 64 bytes of a record (R557). -/
def recordBytes (r : FaultRec) : Bytes :=
  let b := wordsB [r.tick, putFld r.cls 8 56 + putFld r.source 8 48 + putFld r.action 8 40 + putFld r.seq 32 0, putFld r.step 48 0,
    putFld r.epoch 32 0, r.d0, r.d1, r.d2]
  b ++ leBytes 4 (crc32c b) ++ leBytes 4 0

/-- The flash changed by a program or erase command, which sets the flash change flag (R508). -/
def flashPut (s : State) (a : Nat) (bs : Bytes) : State :=
  let m := (bs.zip (List.range bs.length)).foldl (fun m bi => mset m 0xFF (a + bi.2) bi.1) s.start.flash
  { s with start := { s.start with flash := m, flashChg := true } }
def flashErase (s : State) (a n : Nat) : State :=
  { s with start := { s.start with flash := clearRange s.start.flash a n, flashChg := true } }

/-- Base of the log region, and the slot of a record in its ring (R507, R556). -/
def logBase : Nat := 0x2200000
def logSlot (seq : Nat) : Nat := logBase + 64 * (seq % 262144)

/-- The records that are not in flash, oldest first (R556). -/
def unflashed (t : Triage) : List FaultRec :=
  t.log.filter fun r => decide (subMod 32 r.seq t.flashed < subMod 32 t.seq t.flashed)

/-- FAULT_LOG_APPEND (R556): the oldest record that is not in flash. The sector ahead of the write point is erased
when the write point enters a new one. -/
def execFaultLogAppend (s : State) : Res := onRind s <|
  .next (
    match (unflashed s.triage).head? with
    | none => s
    | some r =>
      let s := if r.seq % 1024 = 0 then flashErase s (logBase + 65536 * ((r.seq % 262144 / 1024 + 1) % 256)) 65536 else s
      let s := flashPut s (logSlot r.seq) (recordBytes r)
      modTriage s fun t => { t with flashed := (r.seq + 1) % 2 ^ 32 })

end Sys2Proof.Machine
end

