-- ==== Sys2Proof/Machine/Images.lean ====
section
/-! DEFINITION. Images and their checks: firmware (R510, R511), owner certificate (R513), configuration (R514, R515,
R584), and the flash regions that hold them (R507, R508). -/

namespace Sys2Proof.Machine

/-! ### Flash regions (R507) -/

def fwBase : Nat := 0x100000
def fwSize : Nat := 0x2000000
def cfgBase : Nat := 0x2100000
def cfgSize : Nat := 0x100000

/-! ### Firmware (R510, R511) -/

/-- What a verified firmware image gives: version, digest of its manifest, and its signer's key. -/
structure FwInfo where
  ver : Nat
  digest : Bytes
  pub : Bytes
  deriving DecidableEq, Repr

/-- A firmware image, read by offset and length, verified in the order of R511. -/
def fwCheck (rd : Nat → Nat → Bytes) : Option FwInfo :=
  let m := rd 0 0x40
  let len := leVal (sliceB m 8 4)
  let n := leVal (sliceB m 0x0C 2)
  if leVal (sliceB m 0 4) ≠ 0x57465844 || len == 0 || decide (0x1FF0000 < len) || n != ceilDiv len 0x100000 ||
      (sliceB m 0x0E 50).any (fun b => b ≠ 0) then none
  else
    let end_ := 0x60 + 32 * n
    let pub := rd (end_ - 32) 32
    let chunkOk (i : Nat) : Bool := sha256 (rd (0x10000 + 0x100000 * i) (min 0x100000 (len - 0x100000 * i))) == rd (0x40 + 32 * i) 32
    if sha256 pub == Config.vendorRootHash && Config.slhVerify pub (rd 0 end_) (rd end_ 7856) && (List.range n).all chunkOk then
      some { ver := leVal (sliceB m 4 4), digest := sha256 (rd 0 (end_ + 7856)), pub := pub }
    else none

/-- The firmware in flash, which fails after a write that was cut off (R509), and one in memory. -/
def fwInFlash (s : State) : Option FwInfo := if s.start.torn.contains 1 then none else fwCheck fun a n => flashB s (fwBase + a) n
def fwInMem (img : Bytes) : Option FwInfo := if fwSize < img.length then none else fwCheck fun a n => sliceB img a n

/-! ### Owner certificate (R513) -/

/-- Bytes of an owner certificate. -/
def certSize : Nat := 7896

/-- Whether a certificate of 7,896 bytes is valid: the vendor's signature over its key and serial number. -/
def certValid (s : State) (c : Bytes) : Bool :=
  c.length == certSize && Config.slhVerify s.start.rootPub (c.take 40) (c.drop 40)

/-- The certificate in the directory, and whether it is whole (R509), valid and binds this module. -/
def ownerCert (s : State) : Bytes := flashB s Config.dirOwner certSize
def certBinds (s : State) : Bool :=
  let c := ownerCert s
  let serial := leVal (sliceB c 32 8)
  !s.start.torn.contains 3 && certValid s c && (serial == 0 || serial == serialOf s)

/-! ### Configuration (R35, R336, R514, R515, R526, R584) -/

/-- Whether a duty word is legal: no 0b11, and 0b10 only for functions that offer it (R34, R35). -/
def dutyOk (w : Nat) : Bool :=
  (List.range 8).all fun fn =>
    let m := fld w (2 * fn + 1) (2 * fn)
    m != 3 && (m != 2 || fn == 0 || fn == 3 || fn == 4 || fn == 6)

/-- Whether torus and origin pass R336, reserved bits 0. -/
def torusOk (t o : Nat) : Bool :=
  let x := fld t 13 9 + 1
  let y := fld t 8 4 + 1
  let z := fld t 3 0 + 1
  t < 2 ^ 14 && o < 2 ^ 14 && x % 2 == 0 && y % 2 == 0 && z % 2 == 0 && fld o 13 9 % 2 == 0 && fld o 8 4 % 2 == 0 &&
    fld o 3 0 % 2 == 0 && decide (fld o 13 9 < x) && decide (fld o 8 4 < y) && decide (fld o 3 0 < z)

/-- Whether the interleave byte is legal (R279, R281). -/
def ilvOk (b : Nat) : Bool := b &&& 0xCC == 0 && fld b 5 4 != 3 && fld b 1 0 != 3

/-- Whether the deadlines are nonzero exactly for functions in client-assisted mode (R515). -/
def deadlinesOk (duty : Nat) (ds : List Nat) : Bool :=
  ([0, 3, 4, 6].zip ds).all fun x => (fld duty (2 * x.1 + 1) (2 * x.1) == 2) == (x.2 != 0)

/-- Whether NET keeps its reserved bits 0 and its prefix lengths in range (R584). -/
def netOk (n : Bytes) : Bool :=
  let b (i : Nat) : Nat := (n.getD i 0).toNat
  b 0x3C ≤ 32 && b 0x3D ≤ 32 && b 0x3E ≤ 128 && b 0x3F ≤ 128 && b 0x41 < 16 && b 0x43 < 16 && b 0x45 < 16 &&
    b 0x46 &&& 0x78 == 0 && b 0x47 < 64 && b 0x48 < 64 && (sliceB n 0x49 7).all fun x => x = 0

/-- NET parsed (R584). -/
def netOf (n : Bytes) : Net :=
  let b (i : Nat) : Nat := (n.getD i 0).toNat
  { ip6 := [sliceB n 0 16, sliceB n 0x10 16, sliceB n 0x20 16]
    ip4 := [sliceB n 0x30 4, sliceB n 0x34 4, sliceB n 0x38 4]
    plen4 := [b 0x3C, b 0x3D]
    plen6 := [b 0x3E, b 0x3F]
    vlan := [leVal (sliceB n 0x40 2), leVal (sliceB n 0x42 2), leVal (sliceB n 0x44 2)]
    pfcOn := bitOf (b 0x46) 7
    pfcPrio := fld (b 0x46) 2 0
    dscp := b 0x47
    cnpDscp := b 0x48
    gw4 := [sliceB n 0x50 4, sliceB n 0x54 4] }

/-- Whether a client entry of 48 bytes keeps its reserved bits 0 (R526). -/
def clientOk (e : Bytes) : Bool := leVal (sliceB e 0x20 2) < 8 && (sliceB e 0x22 14).all fun x => x = 0

/-- Failure codes of START_STAT.FAIL (R528). -/
def failSig : Nat := 1
def failConfig : Nat := 2
def failOwner : Nat := 3

/-- The client entries of an image. -/
def imageClients (img : Bytes) (n : Nat) : List Bytes := (List.range n).map fun i => sliceB img (0x100 + 48 * i) 48

/-- A configuration image checked and parsed (R515); the failure otherwise. -/
def cfgCheck (s : State) (img : Bytes) : Except Nat Cfg :=
  let num (a n : Nat) : Nat := leVal (sliceB img a n)
  let n := num 6 2
  let len := num 8 4
  let clients := imageClients img n
  let ds := (List.range 4).map fun i => num (0x18 + 4 * i) 4
  let net := sliceB img 0x28 88
  let owner := sliceB img (len - 7888) 32
  if !certBinds s then .error failOwner
  else if num 0 4 ≠ 0x46435844 || num 4 2 != 1 || n == 0 || decide (1024 < n) || len != 0x100 + 48 * n + 7888 ||
      img.length != len || owner != (ownerCert s).take 32 then .error failConfig
  else if !Config.slhVerify owner (img.take (len - 7856)) (img.drop (len - 7856)) then .error failSig
  else if num 0x17 1 != 0 || (sliceB img 0x80 128).any (fun b => b ≠ 0) || !dutyOk (num 0x10 2) || !torusOk (num 0x12 2) (num 0x14 2) ||
      !ilvOk (num 0x16 1) || !deadlinesOk (num 0x10 2) ds || !netOk net || !clients.all clientOk then .error failConfig
  else
    .ok
      { image := img
        digest := sha256 img
        duty := BitVec.ofNat 16 (num 0x10 2)
        torus := BitVec.ofNat 16 (num 0x12 2)
        origin := BitVec.ofNat 16 (num 0x14 2)
        ilv := BitVec.ofNat 8 (num 0x16 1)
        seq := BitVec.ofNat 32 (num 0xC 4)
        deadline := ds
        clients := clients.map fun e => (e.take 32, BitVec.ofNat 3 (leVal (sliceB e 0x20 2)))
        net := netOf net
        owner := owner }

/-- The configuration image in flash; its length is what it says of itself, up to the region (R507). -/
def cfgInFlash (s : State) : Bytes := flashB s cfgBase (min cfgSize (leVal (flashB s (cfgBase + 8) 4)))

/-- The configuration in flash checked: one whose write was cut off fails, with one of the two codes (R509, R515). -/
def cfgFlashCheck (s : State) : Except Nat Cfg :=
  if s.start.torn.contains 2 then .error (if freeVal s % 2 = 0 then failSig else failConfig) else cfgCheck s (cfgInFlash s)

/-! ### Writes of flash regions (R508, R509, R521) -/

/-- Base and size of a region by its code: 1 firmware, 2 configuration, 3 owner certificate (R507, R583). -/
def regionAt (region : Nat) : Nat × Nat :=
  match region with
  | 1 => (fwBase, fwSize)
  | 2 => (cfgBase, cfgSize)
  | _ => (Config.dirOwner, certSize)

/-- A whole region of flash replaced by an image (R508). -/
def writeRegion (s : State) (region : Nat) (img : Bytes) : State :=
  let r := regionAt region
  let t := flashPut (flashErase s r.1 r.2) r.1 img
  { t with start := { t.start with torn := t.start.torn.filter fun x => x ≠ region } }

/-- The flash write under way, if any, completes: its request is answered (R508, R521, R583). -/
def endWrite (s : State) : State :=
  match s.start.flashWrite with
  | none => s
  | some w =>
    let t := writeRegion s w.region w.img
    emit { t with start := { t.start with flashWrite := none } } (.status w.conn .ok)

/-- The flash write under way, if any, is cut off: its region holds free values that fail its check (R509). -/
def tearWrite (s : State) : State :=
  match s.start.flashWrite with
  | none => s
  | some w =>
    let r := regionAt w.region
    let t := flashPut s r.1 ((List.range r.2).map fun i => BitVec.ofNat 8 (Config.free (s.freeIx + i)))
    { t with freeIx := s.freeIx + r.2, start := { t.start with flashWrite := none, torn := kput t.start.torn w.region } }

end Sys2Proof.Machine
end

