-- ==== Sys2Proof/Machine/Starts.lean ====
section
/-! DEFINITION. Cold and warm starts (R517 to R524, R542, R454): what a start clears and keeps, the stages, the
entry of a warm start and the watchdog. -/

namespace Sys2Proof.Machine

/-- The start state changed. -/
def modStart (s : State) (f : Start → Start) : State := { s with start := f s.start }

/-! ### What a start clears (R15, R290, R520, R522) -/

/-- Power registers at a start: the always-on part stays, with LAST_TRIP (R601, R611). -/
def powStart (p : Power) : Power :=
  { p with
    base := 460800
    pAvg := 0
    k := 0
    floors := [0, 0, 0, 0]
    kv := [0, 0, 0, 0]
    flowLow := false
    therm := false
    pwr := false }

/-- The module at the beginning of the cold sequence with the always-on domain powered: flash, position, handshake,
sensors, the fault records that are not in flash with the number of the next one, and the meter stay; everything else is as
at reset. A
flash write under way completes first (R517, R520, log entry 117). -/
def coldState (s : State) : State :=
  let s := recordWaiting (endWrite s)
  { State.reset with
    pending := s.pending
    out := s.out
    freeIx := s.freeIx
    obj := { State.reset.obj with nonces := s.obj.nonces }
    start := { State.reset.start with flash := s.start.flash, flashChg := s.start.flashChg, torn := s.start.torn }
    pow := { powStart s.pow with winFrom := 0 }
    triage := { State.reset.triage with seq := s.triage.seq, flashed := s.triage.flashed, log := unflashed s.triage }
    meter := meterStart s.meter 0 }

/-- A port over a warm start (R370, R378): an ACTIVE one keeps its PHY and goes to IDENTIFY, the others wait for
RIND_UP; EN and HALF_OK stay. -/
def portWarm (q : Port) (t : Nat) : Port :=
  if q.state = 5 then { en := q.en, halfOk := q.halfOk, width := q.width, reversed := q.reversed, polinv := q.polinv, state := 4, since := t, warmHold := true }
  else { en := q.en, halfOk := q.halfOk }

/-- The object tables over a warm start (R284, R504): kept in HBM, with every slot, connection and command gone. -/
def objWarm (o : Objects) : Objects :=
  { ctxs := o.ctxs.map fun kv => (kv.1, { kv.2 with slot := false, base := [], saved := [] })
    queues := o.queues.map fun kv => (kv.1, { kv.2 with slot := false, bell := none, cmds := [] })
    mems := o.mems.map fun kv => (kv.1, { kv.2 with refs := 0 })
    fences := o.fences.map fun kv => (kv.1, { kv.2 with refs := 0, waiters := 0 })
    sess := o.sess.map fun kv => (kv.1, { kv.2 with qps := [] })
    ctxPool := o.ctxPool, queuePool := o.queuePool, memPool := o.memPool, fencePool := o.fencePool, sessPool := o.sessPool
    quar := o.quar, fenceBase := o.fenceBase, nonces := o.nonces }

/-- The hoop registers that a warm start keeps (R416, R417, R420). -/
def hoopWarm (h : Hoop) : Hoop :=
  { bktBase := h.bktBase, bktCnt := h.bktCnt, stateBase := h.stateBase, grid := h.grid, next := h.next, prev := h.prev,
    ctl := h.ctl, stall := h.stall, closed := h.closed }

/-- The turning, log and coordinator registers that a warm start keeps (R434, R462, R463); both dirty bitmaps are
set in full. -/
def turnWarm (t : Turn) (retire : List Nat) (job : Option Nat) : Turn :=
  { ctl := t.ctl, tblCnt := t.tblCnt, tblBase := t.tblBase, slot0 := t.slot0, slot1 := t.slot1
    stat := BitVec.ofNat 64 (mergeBits 0 t.stat.toNat 0xFFFFFFFFFFFF5000), rlogBase := t.rlogBase, phaseRing := t.phaseRing
    coordCtl := t.coordCtl, coordTime := t.coordTime, coordStat := BitVec.ofNat 64 (mergeBits 0 t.coordStat.toNat 0xFFFFFFFFC0000000)
    client := t.client, full0 := true, full1 := true, retireList := retire, left := job.or t.left }

/-- The module after the reset of a warm start (R521 step 5, R522): the always-on domain, HBM and the cave stay,
the cave only with SR_HOLD. -/
def warmState (s : State) : State :=
  let top := if s.memCtl.srHold then 0x080000000000 else 0x040000000000
  let retire := (s.cores.filter fun kv => retirePend kv.2).map Prod.fst
  let r := State.reset
  let s := recordWaiting s
  { r with
    pending := s.pending
    out := s.out
    freeIx := s.freeIx
    refCnt := s.refCnt
    mem := s.mem.filter fun kv => kv.1 < top
    bad := s.bad.filter fun a => a < top
    remap := s.remap
    vatFail := s.vatFail
    fltCnt := s.fltCnt
    ports := (List.range 12).map fun p => (p, portWarm (portOf s p) (now s))
    fab := { r.fab with tmo := s.fab.tmo, arb := s.fab.arb, fmap := s.fab.fmap, aliases := s.fab.aliases, rcache := s.fab.rcache }
    hoop := hoopWarm s.hoop
    turn := turnWarm s.turn retire (s.obj.job.map Prod.fst)
    obj := objWarm s.obj
    start :=
      { r.start with
        warm := true, cfg := s.start.cfg, flash := s.start.flash, flashChg := s.start.flashChg, torn := s.start.torn,
        seed := s.start.seed,
        idPub := s.start.idPub, idValid := s.start.idValid, debugUnlock := s.start.debugUnlock }
    clk := { r.clk with stat := s.clk.stat &&& 1, fast := true }
    pow := powStart s.pow
    memCtl := { s.memCtl with parked := 0, wakes := 0 }
    triage :=
      { r.triage with
        unfit := s.triage.unfit, degraded := s.triage.degraded, seq := s.triage.seq, flashed := s.triage.flashed,
        log := unflashed s.triage, windowFrom := now s }
    meter := meterStart s.meter (now s) }

/-! ### The entry of a warm start (R521) -/

/-- Every admitted command retired with REPLAYED, whatever of it still ran. -/
def replayAll (s : State) : State :=
  s.obj.queues.foldl (fun s kv => kv.2.cmds.foldl (fun s c => doRetire (commit s kv.1 c.seq .replayed) kv.1 c.seq) s) s

/-- Writes that the memory controllers have accepted and that a parked channel or a copy kept waiting are completed (R284,
R521). -/
def completeHeld (s : State) : State :=
  s.turn.held.foldl (fun s h => memPut s h.addr h.data)
    { s with turn := { s.turn with held := [] }, memCtl := { s.memCtl with parked := 0, wakes := 0 } }

/-- Whether what the contexts have issued is under way still: a stop at a preemption point lets it complete. A module that has
lost a clock does not wait for it (R179, R521, R544, log entry 128). -/
def workLeft (s : State) : Bool := s.clk.down == 0 && s.cores.any fun kv => !settled kv.2

/-- Steps 1 to 4: contexts stop and their counts are charged, commands retire, hoop steps and the turning are
abandoned, the ladles stop, accepted writes complete. -/
def stopAll (s : State) : State :=
  let s := s.cores.foldl (fun s kv => charge s kv.1) s
  let s := s.obj.ctxs.foldl (fun s kv => stopContext s kv.1) s
  let s := replayAll s
  let s := completeHeld (abandonTurn (hoopAbandon s))
  { s with ladles := [], hubLadles := [], ladleLast := [] }

/-- Ports that are ACTIVE announce a warm hold and send IDLE flits from then on (R370). -/
def holdPorts (s : State) : State :=
  (List.range 12).foldl (fun s p => if portActive s p then sendIdle (emit s (.warmHold p)) p else s) s

/-- WARM_START_ENTRY (R521, R523): a start request that waits is taken. The contexts are stopped, and the reset follows once
their issued work has ended. Before full service it is the cold sequence that runs. -/
def execWarmStartEntry (s : State) : Res :=
  .next (
    if s.start.mode != .normal then s
    else match s.start.request with
      | none => s
      | some true => coldState s
      | some false =>
        let t := s.obj.ctxs.foldl (fun s kv => stopContext s kv.1) s
        if workLeft t then t
        else warmState (holdPorts (finalFrame (endWrite (stopAll s)))))

/-- WATCHDOG_EXPIRY (R520): the rind is up and has had no firmware heartbeat for 100,000,000 reference ticks. -/
def execWatchdogExpiry (s : State) : Res :=
  .next (
    if s.start.released && s.start.mode == .normal && decide (100000000 ≤ subMod 64 (now s) s.start.heartbeat) then
      attn (askWarm s) { cls := 0x0D, source := 0 }
    else s)

/-! ### Stages 0 and 1 (R511, R517, R524) -/

/-- PLLs that have locked, by CLK_STAT bit; one that has lost lock stays so until the next start (R544, R546). -/
def lockPlls (s : State) (mask : Nat) : State :=
  modClk s fun k => { k with stat := k.stat ||| (BitVec.ofNat 64 mask &&& ~~~(k.down.setWidth 64)) }

/-- RENNET_STAGE (R517, R524): the identity from the PUF at a cold start; a warm start keeps it. -/
def execRennetStage (puf : Bytes) (s : State) : Res :=
  .next (
    if s.start.stage ≠ 0 || s.start.mode != .normal then s
    else
      let s := lockPlls s 0xB
      if s.start.warm then modStart s fun x => { x with stage := 1 }
      else
        let seed := Config.pufSeed puf (flashB s Config.dirHelper Config.dirHelperLen)
        let pub := Config.slhPublic seed
        let ok := padB 32 pub == flashB s Config.dirKey 32
        modStart s fun x => { x with stage := 1, seed := seed, idPub := padB 32 pub, idValid := ok, fail := if ok then 0 else 4 })

/-- FIRMWARE_VERIFY (R511, R512): the rind cores are released, or recovery service is entered. -/
def execFirmwareVerify (s : State) : Res :=
  .next (
    if s.start.stage ≠ 1 || s.start.mode != .normal then s
    else match fwInFlash s with
      | none => modStart s fun x => { x with mode := .recovery }
      | some f =>
        modStart s fun x =>
          { x with
            stage := 2, fwVer := BitVec.ofNat 32 f.ver, fwDigest := f.digest, rootPub := f.pub, released := true, heartbeat := now s })

/-! ### Stage 2 (R454, R515, R516, R517, R519) -/

/-- The record of a start (R549): FAIL and STAGE. -/
def startEvent (s : State) : State :=
  attn s { cls := 0x0F, source := 0, d1 := s.start.fail.setWidth 64, d2 := s.start.stage.setWidth 64 }

/-- Whether a warm start uses the retained configuration (R516). -/
def retained (s : State) : Bool :=
  s.start.warm && !s.start.flashChg &&
    match s.start.cfg with | some f => sha256 f.image == f.digest | none => false

/-- Whether the cores of a vat are bound in logical order, as BIST binds them. -/
def boundInOrder (s : State) (v : Nat) : Bool :=
  (List.range 63).all fun c => decide (physOf s (64 * v + c) < physOf s (64 * v + c + 1))

/-- The remap of a vat from its BIST results: failing physical cores are marked, the lowest-numbered ones that pass and
are not marked are bound in logical order (R519). A vat in which a retirement has bound a spare since keeps its
bindings, and a bound core that fails gives way to the lowest-numbered spare (R18, R465, log entry 105). The counts go with
the physical cores (R184). -/
def bindVat (s : State) (v : Nat) (mask : BitVec 66) : State :=
  let bad := (List.range 66).filter fun p => !mask.toNat.testBit p
  let s := { s with vatFail := bad.foldl (fun l p => kput l (66 * v + p)) s.vatFail }
  let pass := (bitsOf 66 mask.toNat).filter fun p => !s.vatFail.contains (66 * v + p)
  let t := (List.range 64).foldl
    (fun t c =>
      if boundInOrder s v then (match pass[c]? with | some p => bindCore t (64 * v + c) p | none => t)
      else if t.vatFail.contains (physOf t (64 * v + c)) then
        (match spareCore t v with | some p => bindCore t (64 * v + c) p | none => t)
      else t) s
  moveCounts s t v

/-- Whether every vat has 64 physical cores that pass (R519). -/
def coresOk (s : State) : Bool :=
  (List.range 4).all fun v => decide (64 ≤ ((List.range 66).filter fun p => !s.vatFail.contains (66 * v + p)).length)

/-- A logical core retired at a warm start: its physical core is marked, the lowest-numbered spare is bound without
a move; without one the module is unfit (R94, R454). -/
def retireAtStart (s : State) (c : Nat) : State :=
  let old := physOf s c
  let s := { s with vatFail := kput s.vatFail old }
  match spareCore s (c / 64) with
  | some p => retiredEvent (bindCore s c p) c old
  | none => modTriage s fun t => { t with unfit := true }

/-- The cores of a warm start: the pending retirements, then the failures of the quick BIST of bound cores. -/
def warmCores (s : State) (bist : List (BitVec 66)) : State :=
  let s := s.turn.retireList.foldl retireAtStart s
  let s := modTurn s fun t => { t with retireList := [] }
  let failed := (List.range 256).filter fun c => !((bist.getD (c / 64) (BitVec.allOnes 66)).toNat.testBit (physOf s c % 66))
  failed.foldl retireAtStart s

/-- Vat 0 and stacks 0 to 5 brought up: a stack that fails training keeps the module in early service. At a warm start
everything that is retained comes back, the cave only with SR_HOLD and else after its training, and ports that were not
ACTIVE begin to train (R284, R517, R519, R522). -/
def bringUp (s : State) (b : BringUp) : State :=
  if s.start.warm then
    let s := warmCores s b.bist
    let s := modStart s fun x => { x with up := true, stackUp := BitVec.allOnes 24, caveUp := if s.memCtl.srHold then 0xFFFF else 0 }
    let s := lockPlls s 0xFFFFFFFFF
    let s := { s with ports := s.ports.map fun kv =>
      (kv.1, if kv.2.state = 4 then { kv.2 with since := now s } else if kv.2.en then trainFrom kv.2 1 (now s) else kv.2) }
    (List.range 12).foldl (fun s p => if (portOf s p).state = 4 then identify s p else s) s
  else
    let s := bindVat s 0 (b.bist.getD 0 0)
    let s := modStart s fun x => { x with up := true, stackUp := b.stackUp.setWidth 24 }
    let s := if b.stackUp = 0x3F then s else startEvent (modStart s fun x => { x with fail := 6 })
    let s := modObj s fun o => { o with fenceBase := BitVec.ofNat 64 (putFld (b.fenceBase / 32) 43 5) }
    let s := modHoop s fun h => { h with bktBase := qwBaseStore b.hoopTable, stateBase := qwBaseStore b.hoopState }
    lockPlls s 0x3F119

/-- A configuration put in force: bytes stay where they are stored, and a changed HBM_ILV or CAVE_ILV gives them other
addresses (R523). -/
def putConfig (s : State) (c : Option Cfg) : State :=
  let t := modStart s fun x => { x with cfg := c }
  let w := ilvWord s
  let w' := ilvWord t
  if w = w' then t
  else
    { t with
      mem := s.mem.foldl (fun m kv => putBytes m (movedAddr w w' kv.1) [kv.2]) []
      bad := s.bad.foldl (fun l a => kput l (movedAddr w w' a)) [] }

/-- RIND_UP (R515 to R517): the configuration in force, then the memories and vat 0. A failure of the configuration
holds the module in configuration wait; an invalid identity stops it here. -/
def execRindUp (b : BringUp) (s : State) : Res :=
  .next (
    if s.start.stage ≠ 2 || s.start.mode != .normal || !s.start.released || !s.start.idValid || s.start.up then s
    else if retained s then bringUp (modStart s fun x => { x with cfgRet := true }) b
    else
      let s := modStart s fun x => { x with flashChg := false, cfgRet := false }
      match cfgFlashCheck s with
      | .error e => startEvent (modStart (putConfig s none) fun x => { x with stage := 5, fail := BitVec.ofNat 16 e })
      | .ok f => bringUp (putConfig s (some f)) b)

/-! ### Early and full service (R518, R519, R522) -/

/-- EARLY_SERVICE_ENTRY (R518): at a cold start; the enabled Ruong ports begin to train. -/
def execEarlyServiceEntry (s : State) : Res :=
  .next (
    if s.start.stage ≠ 2 || s.start.mode != .normal || !s.start.up || s.start.warm then s
    else
      let s := modStart s fun x => { x with stage := 3 }
      (List.range 12).foldl (fun s p => if (portOf s p).en then modPort s p fun q => trainFrom q 1 (now s) else s) s)

/-- Full service entered where the cores and the memories allow it, else early service kept, with the failure (R519). -/
def enterFull (s : State) : State :=
  let cores := coresOk s
  let mems := s.start.stackUp == BitVec.allOnes 24 && s.start.caveUp == BitVec.allOnes 16
  startEvent (modStart s fun x =>
    { x with stage := if cores && mems then 4 else 3, fail := if !cores then 5 else if mems then 0 else 6 })

/-- FULL_SERVICE_ENTRY (R519, R522): after the training of a cold start, or from RIND_UP of a warm one, whose cave is trained
where SR_HOLD did not keep it (R284). -/
def execFullServiceEntry (t : Training) (s : State) : Res :=
  .next (
    if s.start.mode != .normal || !s.start.up then s
    else if s.start.warm then
      if s.start.stage = 2 then
        enterFull (if s.memCtl.srHold then s else modStart s fun x => { x with caveUp := t.channels })
      else s
    else if s.start.stage ≠ 3 then s
    else
      let s := (List.range 4).foldl (fun s v => bindVat s v (t.bist.getD v 0)) s
      let s := modStart s fun x => { x with stackUp := t.stackUp, caveUp := t.channels }
      let s := modMeter s fun m => { m with hubEarly := true }
      enterFull (lockPlls s 0xFFFFFFFFF))

end Sys2Proof.Machine
end

