-- ==== Sys2Proof/Machine/Manage.lean ====
section
/-! DEFINITION. The management port (R508, R512, R515, R520, R525, R570, R582, R583, R589, R591). -/

namespace Sys2Proof.Machine

/-! ### Who is served (R582, R583) -/

/-- STATUS of a management request. -/
def answer (s : State) (n : Nat) (st : Status) : State := emit s (.status (some n) st)

/-- A message on a connection that exists. -/
def onConn (s : State) (n : Nat) (run : Conn → State) : Res :=
  .next (
    if served s == .nothing then s
    else match mget? s.obj.conns n with
      | none => s
      | some c => run c)

/-- Whether a connection has authenticated with the MGMT right (R526). -/
def mayManage (c : Conn) : Bool := bitOf c.rights.toNat 2

/-- A message that needs the MGMT right; without it, or where recovery service or configuration wait serves no such
message, NOT_PERMITTED (R512, R582, R583). -/
def onMgmt (s : State) (n : Nat) (run : State) : Res :=
  onConn s n fun c => if mayManage c && served s == .all then run else answer s n .notPermitted

/-- MGMT_CONNECT (R582, R583): up to four connections at a time, on the addresses in force. -/
def execMgmtConnect (s : State) : Res := onRind s <|
  .next (
    if served s == .nothing then s
    else match (List.range 4).find? fun n => (mget? s.obj.conns n).isNone with
      | some n => modObj s fun o => { o with conns := mput o.conns n { ips := mgmtIps s, since := now s, hello := none, rights := 0 } }
      | none => emit s (.refused 4))

/-! ### Attestation (R525) -/

/-- FLAGS of an attestation record. -/
def attestFlags (s : State) : Nat :=
  putBit s.start.warm 0 + putBit s.start.cfgRet 1 + putBit (s.start.mode == .recovery) 2 + putBit (s.start.stage == 4) 3 +
    putBit s.start.idValid 4 + putFld (meterState s.meter) 2 5 + putBit s.start.debugUnlock 7

/-- Bytes 0x000 to 0x0BF of an attestation record. The owner key is that of the certificate in the directory, none where it
is erased; METER_SEQ is that of the last record read (R507, R571). -/
def attestBody (s : State) (nonce : Bytes) : Bytes :=
  let cfg (f : Cfg → Bytes) (n : Nat) : Bytes := padB n (match s.start.cfg with | some c => f c | none => [])
  let owner := ownerCert s
  leBytes 4 0x54415844 ++ leBytes 2 1 ++ leBytes 2 (attestFlags s) ++ padB 32 nonce ++
    leBytes 4 (if s.start.mode = .recovery then 0 else s.start.fwVer.toNat) ++ cfg (fun c => leBytes 4 c.seq.toNat) 4 ++
    padB 32 s.start.fwDigest ++ cfg (fun c => c.digest) 32 ++ padB 32 (if owner.all (· = 0xFF) then [] else sha256 (owner.take 32)) ++ padB 32 s.start.idPub ++
    leBytes 2 (ownNode s) ++ leBytes 2 (dutyWord s) ++ leBytes 4 0 ++ leBytes 8 s.meter.readSeq.toNat

/-- An attestation record: its body and the identity signature, which an invalid identity leaves zero (R524). -/
def attestRecord (s : State) (nonce : Bytes) : Bytes :=
  let b := attestBody s nonce
  b ++ padB 7856 (if s.start.idValid then Config.slhSign s.start.seed b else [])

/-- ATTEST_REQ (R525): from any sender. -/
def execAttestReq (nonce : Bytes) (s : State) : Res := onRind s <|
  .next (if served s == .nothing then s else emit s (.mgmt none 0x11 (attestRecord s nonce)))

/-! ### Images (R508, R512, R513, R515) -/

/-- Whether an image of a region verifies (R508). A reserved region code is a body that does not. -/
def flashImageOk (s : State) (region : Nat) (img : Bytes) : Bool :=
  match region with
  | 1 => (fwInMem img).isSome
  | 2 => (match cfgCheck s img with | .ok _ => true | .error _ => false)
  | 3 => certValid s img
  | _ => false

/-- The write of a region by a verified image begun: it reaches the flash controller and completes later (R508, R509). An
image that does not verify writes nothing. -/
def putImage (s : State) (conn : Option Nat) (region : Nat) (img : Bytes) : State :=
  if flashImageOk s region img then
    modStart (endWrite s) fun x => { x with flashWrite := some { region := region, img := img, conn := conn }, flashChg := true }
  else emit s (.status conn .descInvalid)

/-- RECOVERY_IMAGE_WRITE (R512). -/
def execRecoveryImageWrite (image : Bytes) (s : State) : Res := onRind s <|
  .next (if served s == .recovery then putImage s none 1 image else s)

/-- The cold sequence begun again from the configuration read (R515): what stage 1 established stays. -/
def restartConfig (s : State) : State :=
  let r := coldState s
  { r with
    refCnt := s.refCnt
    meter := s.meter
    triage := s.triage
    clk := { s.clk with fast := false, relock := false }
    obj := { r.obj with conns := s.obj.conns }
    start := { s.start with stage := 2, warm := false, cfgRet := false, fail := 0, up := false, cfg := none } }

/-- The flash write under way completes: in recovery service the cold sequence runs then, in configuration wait it is begun
again from the configuration read (R512, R515, R521, log entry 117). -/
def completeWrite (s : State) : State :=
  if s.start.flashWrite.isNone then s
  else match served s with
    | .recovery => coldState (endWrite s)
    | .configWait => restartConfig (endWrite s)
    | _ => endWrite s

/-- IMAGE_PUT (R582, R583): in recovery service the firmware, in configuration wait the configuration or the owner
certificate from any sender; otherwise with MGMT. -/
def execImagePut (conn region : Nat) (image : Bytes) (s : State) : Res := onRind s <|
  onConn s conn fun c =>
    let may := match served s with
      | .recovery => region == 1
      | .configWait => region == 2 || region == 3
      | _ => mayManage c
    if may then putImage s (some conn) region image else answer s conn .notPermitted

/-! ### Starts and scan hold (R520, R523, R591) -/

/-- START (R520, R523): 1 cold, 2 warm. Before full service a warm request runs the cold sequence; a request that
meets a running start or one that waits is merged, a cold one upgrading a warm one. -/
def execStart (conn : Nat) (kind : Dword) (s : State) : Res := onRind s <|
  onMgmt s conn (
    if kind = 1 then
      let s := answer s conn .ok
      if starting s then s else coldState s
    else if kind = 2 then
      if s.start.mode = .scanHold then answer s conn .busy
      else
        let s := answer s conn .ok
        if starting s || s.start.request.isSome then s
        else if s.start.stage == 4 then modStart s fun x => { x with request := some false }
        else coldState s
    else answer s conn .descInvalid)

/-- The interfaces that scan hold stops driving: Ruong, Ethernet, PCIe and SMBALERT#. PGOOD, an open drain, is released
already (R591, R597); the sensor port still answers (R592; DESIGN CHOICE, log entry 132). -/
def releasePins (s : State) : State :=
  { s with
    ports := s.ports.map fun kv => (kv.1, { en := kv.2.en, halfOk := kv.2.halfOk })
    eths := s.eths.map fun kv => (kv.1, { kv.2 with link := 0, pfcRx := false })
    pcies := (List.range 4).map fun l =>
      (l, { mget s.pcies {} l with speed := 0, width := 0, nvme := false, admin := false, pairs := [], ns := [], down := true })
    pow := { s.pow with alert := false } }

/-- SCAN_HOLD (R591): BUSY while a start is running or waits. -/
def execScanHold (conn : Nat) (s : State) : Res := onRind s <|
  onMgmt s conn (
    if s.start.mode = .scanHold then answer s conn .ok
    else if starting s || s.start.request.isSome then answer s conn .busy
    else answer (modStart (releasePins (stopAll s)) fun x => { x with mode := .scanHold }) conn .ok)

/-! ### Self-tests, records and the unlock token (R527, R557, R570, R589) -/

/-- SELFTEST (R527): from a connection with MGMT, or from fault triage. -/
def execSelftest (conn : Option Nat) (t : SelfTest) (s : State) : Res := onRind s <|
  match conn with
  | some n => onMgmt s n (let r := askTest s conn t; answer r.1 n r.2)
  | none => .next (askTest s none t).1

/-- METER_READ (R570): one answer per record from SEQ on. An absent meter presents no ring (R571). -/
def execMeterRead (conn seq : Nat) (s : State) : Res := onRind s <|
  onMgmt s conn (
    let head := s.meter.head.toNat
    if meterState s.meter = 1 || !s.meter.powered || seq = 0 || head < seq || seq + 256 ≤ head then answer s conn .notFound
    else
      let recs := (List.range (head + 1 - seq)).filterMap fun i => mget? s.meter.ring ((seq + i) % 256)
      let s := recs.foldl (fun s b => emit s (.mgmt (some conn) 0x23 b)) s
      answer (modMeter s fun m => { m with readSeq := m.head }) conn .ok)

/-- A fault record by SEQ, from rind memory or from flash; one whose CRC fails is skipped (R556, R557). -/
def logRecord (s : State) (q : Nat) : Option Bytes :=
  match s.triage.log.find? fun r => r.seq == q with
  | some r => some (recordBytes r)
  | none =>
    let b := flashB s (logSlot q) 64
    if leVal (sliceB b 0x38 4) == crc32c (b.take 0x38) && fld (wordAt b 8) 31 0 == q then some b else none

/-- LOG_READ (R583): fault log records from SEQ on, of those that the log still holds. -/
def execLogRead (conn seq : Nat) (s : State) : Res := onRind s <|
  onMgmt s conn (
    let d := subMod 32 s.triage.seq seq
    let n := if d < 2 ^ 31 then min 262144 d else 0
    let first := subMod 32 s.triage.seq n
    let recs := (List.range n).filterMap fun i => logRecord s ((first + i) % 2 ^ 32)
    answer (emit s (.mgmt (some conn) 0x24 recs.flatten)) conn .ok)

/-- DEBUG_TOKEN_LOAD (R589): Erora's signature over this module's serial number; in force until the next cold
start. -/
def execDebugTokenLoad (conn : Nat) (pub sig : Bytes) (s : State) : Res := onRind s <|
  onConn s conn fun _ =>
    if served s != .all then answer s conn .notPermitted
    else if sha256 pub == Config.debugKeyHash && Config.slhVerify pub (leBytes 8 (serialOf s)) sig then
      answer (modStart s fun x => { x with debugUnlock := true }) conn .ok
    else answer s conn .descInvalid

end Sys2Proof.Machine
end

