-- ==== Sys2Proof/Machine/Power.lean ====
section
/-! DEFINITION. Input power, rails and the handshake (R24, R601 to R604), the power ceiling (R606 to R612), loss of
clocks and stopped clocks (R540 to R544), JTAG (R588 to R590) and the SMBus sensor port (R592, R593, R610). -/

namespace Sys2Proof.Machine

/-! ### Input power and rails (R24, R520, R601 to R604) -/

/-- PGOOD driven (R597). -/
def drivePgood (s : State) (b : Bool) : State :=
  if s.pow.pgood = b then s else emit (modPow s fun p => { p with pgood := b }) (.pgood b)

/-- Rails 1 to 6 start, where EN is high, the input is in range and EN has toggled since a fault (R603, R604). -/
def raiseRails (s : State) : State :=
  if s.pow.vin && s.pow.en && !s.pow.latched then modPow s fun p => { p with rise := true } else s

/-- Everything that rails 1 to 6 feed is lost, with a flash write under way and the fault records in rind memory; the
always-on domain with REF_CNT, and the meter with its own supply, stay (R509, R556, R604). -/
def loseCore (s : State) (m : Mode) : State :=
  let r := coldState { tearWrite s with triage := { s.triage with attn := [], log := [], flashed := s.triage.seq } }
  { r with
    refCnt := s.refCnt
    meter := s.meter
    pow := { r.pow with winFrom := now s }
    start := { r.start with mode := m } }

/-- Rails 1 to 6 fall, and PGOOD with them (R604). -/
def dropRails (s : State) (m : Mode) (latched : Bool) : State :=
  modPow (loseCore (drivePgood s false) m) fun p => { p with rise := false, latched := latched }

/-- POWER_APPLY (R24, R601, R604): the position contacts are latched; the module pulls EN up. With 48 V present the
input comes back into range, and the contacts are not sampled again. -/
def execPowerApply (pos : BitVec 3) (s : State) : Res :=
  .next (if s.pow.vin then raiseRails s else raiseRails (modPow s fun p => { p with vin := true, pos := pos }))

/-- POWER_LOSS (R24, R611): only flash, the meter and the level of EN outlast it. -/
def execPowerLoss (s : State) : Res :=
  .next (
    if !s.pow.vin then s
    else
      let r := dropRails s .off false
      { r with
        refCnt := 0
        pow := { vin := false, en := s.pow.en, rails := s.pow.rails, rise := false, pgood := false }
        start := { r.start with flashChg := false } })

/-- EN_HIGH (R604). -/
def execEnHigh (s : State) : Res := .next (raiseRails (modPow s fun p => { p with en := true }))

/-- EN_LOW (R604, R520): the toggle that a latched fault waits for begins. -/
def execEnLow (s : State) : Res :=
  .next (
    let s := modPow s fun p => { p with en := false, latched := false }
    if !s.pow.vin then s
    else if s.pow.rise then dropRails s .off false
    else modStart s fun x => { x with mode := .off })

/-- The reset in which the monitor holds the module while it has no reference (R543). -/
def holdReset (s : State) : State := loseCore s .refLost

/-- POWER_GOOD_HANDSHAKE (R604, R517): stage 0 begins, or the hold in reset where the reference is absent (R543). -/
def execPowerGoodHandshake (s : State) : Res :=
  .next (
    if s.pow.vin && s.pow.en && s.pow.pgood && s.start.mode == .off then
      if s.pow.refGone then holdReset s else coldState s
    else s)

/-- UNDERVOLTAGE (R602, R604). -/
def execUndervoltage (s : State) : Res := .next (if s.pow.vin && s.pow.rise then dropRails s .off s.pow.latched else s)

/-- RAIL_OUT_OF_TOLERANCE (R603, R604): V_AON or a rail that has started; PGOOD comes back only after EN toggles. -/
def execRailOutOfTolerance (rail : Nat) (s : State) : Res :=
  onUnit 7 rail (.next (if s.pow.vin && s.pow.rise && decide (rail ≤ s.pow.rails) then dropRails s .off true else s))

/-! ### The sensors (R592, R593, R610) -/

/-- First voltage of rails 0 to 6 in mV (R603). -/
def railMv : List Nat := [1800, 750, 800, 750, 1050, 5000, 900]

/-- Whether a sensor is fitted (R610). -/
def sensorFitted (n : Nat) : Bool :=
  decide (n ≤ 6) || (decide (0x08 ≤ n) && decide (n ≤ 0x0C)) || (decide (0x10 ≤ n) && decide (n ≤ 0x29)) ||
    (decide (0x30 ≤ n) && decide (n ≤ 0x36))

/-- Whether a sensor word lies beyond its alert limit (R610); `limit` is the effective power limit in units of
1/128 W. -/
def beyond (limit n : Nat) (v : BitVec 16) : Bool :=
  let u := v.toNat
  let t := v.toInt
  if n = 0 then decide (u < 40000) || decide (60000 < u)
  else if n = 1 then decide (9000 < u)
  else if n = 2 then decide (36000 < u)
  else if n = 3 then decide (limit < 16 * u)
  else if n = 4 then decide (5120 < t)
  else if n = 5 then decide (7680 < t)
  else if n = 6 then decide (u < 3000)
  else if n < 0x10 then decide (13440 ≤ t)
  else if n < 0x28 then decide (12160 ≤ t)
  else if n = 0x28 then decide (10880 ≤ t)
  else if n = 0x29 then decide (14080 ≤ t)
  else
    let r := railMv.getD (n - 0x30) 0
    decide (103 * r < 100 * u) || decide (100 * u < 97 * r)

/-- A limit crossed (R593): the status bit, and SMBALERT# where the mask lets the sensor assert it. In scan hold the module
drives no such contact (R591). -/
def crossed (s : State) (n : Nat) : State :=
  let s := modPow s fun p => { p with crossed := true }
  if n < 16 && s.start.mode != .scanHold && bitOf s.pow.alertMask.toNat n then emit (modPow s fun p => { p with alert := true }) .alert else s

/-- A sensor word refreshed under a new power limit: it crosses its limit where it goes beyond it, or the limit falls below
it (R593, R610). -/
def sample (s : State) (old limit n : Nat) (v : BitVec 16) : State :=
  let was := match mget? s.pow.sensors n with | some o => beyond old n o | none => false
  let s := modPow s fun p => { p with sensors := mput p.sensors n v }
  if beyond limit n v && !was then crossed s n else s

/-- SENSOR_LIMIT_CROSS (R593, R610). -/
def execSensorLimitCross (n : Nat) (value : BitVec 16) (s : State) : Res :=
  onUnit 64 n (.next (
    let limit := effLimit s.pow
    if !s.pow.vin || !sensorFitted n then s
    else
      let s := modPow s fun p => { p with sensors := mput p.sensors n value }
      if beyond limit n value then crossed s n else s))

/-- SMBUS_READ_SENSOR (R593): 0x8000 where no sensor is fitted; the word of a sensor that no command has refreshed
is a free value (log entry 2). The port answers whenever 48 V is present, also before the power-good handshake (R592, beside
R26; DESIGN CHOICE, log entry 132). -/
def execSmbusReadSensor (n : Nat) (s : State) : Res :=
  .next (
    if !s.pow.vin then s
    else if 64 ≤ n then emit s .smbusNack
    else if !sensorFitted n then emit s (.smbus (leBytes 2 0x8000))
    else match mget? s.pow.sensors n with
      | some v => emit s (.smbus (leBytes 2 v.toNat))
      | none => emit (drawn s) (.smbus (leBytes 2 (freeVal s))))

/-- SMBUS_READ_STATUS (R593): bit 1 is cleared, unless a crossing falls in the same transaction. -/
def execSmbusReadStatus (crossing : Bool) (s : State) : Res :=
  .next (
    if !s.pow.vin then s
    else
      let b := BitVec.ofNat 8 (putBit s.pow.alert 0 + putBit s.pow.crossed 1)
      modPow (emit s (.smbus [b])) fun p => { p with crossed := crossing })

/-- SMBUS_ALERT_MASK (R592, R593): a read, or a write whose PEC must be right. -/
def execSmbusAlertMask (w : Option (BitVec 16)) (pecOk : Bool) (s : State) : Res :=
  .next (
    if !s.pow.vin then s
    else match w with
      | none => emit s (.smbus (leBytes 2 s.pow.alertMask.toNat))
      | some v => if pecOk then modPow s fun p => { p with alertMask := v } else emit s .smbusNack)

/-- SMBUS_IDENTITY_READ (R593): serial number and ordering code "EDX4-A1". -/
def execSmbusIdentityRead (s : State) : Res :=
  .next (
    if s.pow.vin then emit s (.smbus (leBytes 8 (serialOf s) ++ [0x45, 0x44, 0x58, 0x34, 0x2D, 0x41, 0x31, 0x00])) else s)

/-- SMBUS_ALERT_RESPONSE (R592, R593): the module that asserts SMBALERT# answers with its address and lets go. -/
def execSmbusAlertResponse (s : State) : Res :=
  .next (
    if s.pow.vin && s.pow.alert then
      modPow (emit s (.smbus [0x48 + s.pow.pos.setWidth 8])) fun p => { p with alert := false }
    else s)

/-! ### The power ceiling (R606 to R609, R611) -/

/-- The limit that the inlet sets, in units of 1/128 W (R606). -/
def inletLimit (inlet : Option Int) : Nat :=
  match inlet with
  | some t => min 460800 (460800 - 120 * (t - 5120)).toNat
  | none => 307200

/-- The module count k after a window (R606). -/
def nextGate (k avg limit : Nat) : Nat :=
  if limit < avg then min 48 (k + 4) else if avg + 12800 < limit then k - 1 else k

/-- A thermal floor after a window (R607). -/
def nextFloor (f : Nat) (t : Int) : Nat := if 13440 ≤ t then 32 else if t < 12800 then 0 else f

/-- Whether an HBM stack was at 115 °C or above when its sensor word was last refreshed (R607, R610). -/
def stackHot (s : State) : Bool :=
  (List.range 24).any fun k => match mget? s.pow.sensors (0x10 + k) with | some v => decide (14720 ≤ v.toInt) | none => false

/-- Cause of a trip: 1 junction, 2 inlet (R607, R611). -/
def tripCause (s : State) (w : PowerSample) : Nat :=
  if 14720 ≤ w.hub || w.tj.any (fun t => decide (14720 ≤ t)) || stackHot s then 1
  else match w.inlet with | some t => if 6400 < t then 2 else 0 | none => 0

/-- Sensor words of a window under its limit, `old` before it (R610). -/
def windowSensors (s : State) (w : PowerSample) (old limit : Nat) : State :=
  let s := sample s old limit 3 (BitVec.ofNat 16 (w.pAvg / 16))
  let s := match w.inlet with
    | some t => sample s old limit 4 (BitVec.ofInt 16 t)
    | none => modPow s fun p => { p with sensors := mput p.sensors 4 0x8000 }
  let s := (w.tj.zip (List.range 4)).foldl (fun s x => sample s old limit (8 + x.2) (BitVec.ofInt 16 x.1)) s
  sample s old limit 0x0C (BitVec.ofInt 16 w.hub)

/-- Whether the window of 100,000 reference ticks has ended (R606). -/
def windowOver (s : State) : Bool := decide (100000 ≤ subMod 64 (now s) s.pow.winFrom)

/-- POWER_WINDOW (R606 to R608): the end of a window. A trip overrides the rest. -/
def execPowerWindow (w : PowerSample) (s : State) : Res :=
  .next (
    if !s.pow.vin || !railsUp s || s.start.mode == .refLost || !windowOver s then s
    else
      let old := effLimit s.pow
      let s := modPow s fun p => { p with base := inletLimit w.inlet, winFrom := now s }
      let limit := effLimit s.pow
      let s := windowSensors s w old limit
      let cause := tripCause s w
      if cause ≠ 0 then dropRails (modPow s fun p => { p with trip := BitVec.ofNat 2 cause }) .tripped true
      else
        let old := s.pow.k.toNat
        let k := nextGate old w.pAvg limit
        let floors := (List.range 4).map fun v => nextFloor (s.pow.floors.getD v 0) (w.tj.getD v 0)
        modPow s fun p =>
          { p with
            pAvg := BitVec.ofNat 16 (w.pAvg / 128)
            k := BitVec.ofNat 6 k
            floors := floors
            kv := floors.map fun f => max k f
            therm := p.therm || floors.any (fun f => decide (0 < f))
            pwr := p.pwr || decide (old < k) })

/-- FLOW_LOW (R609): set, and the limit with it, which may fall below the power of the last window (R606, R610). -/
def execFlowLow (s : State) : Res :=
  .next (
    if !s.pow.vin || !railsUp s then s
    else
      let old := effLimit s.pow
      let s := modPow s fun p => { p with flowLow := true }
      match mget? s.pow.sensors 3 with
      | some v => sample s old (effLimit s.pow) 3 v
      | none => s)

/-! ### Loss of clocks (R543, R544) -/

/-- REFERENCE_LOSS (R543): the monitor in the always-on domain has missed the reference; a module that has started is held
in reset. -/
def execReferenceLoss (s : State) : Res :=
  .next (
    if !s.pow.vin || s.pow.refGone then s
    else
      let s := modPow s fun p => { p with refGone := true }
      if railsUp s && s.start.mode != .off then holdReset s else s)

/-- REFERENCE_RETURN (R543): the cold sequence, at once from the hold and else after the handshake; what was retained, REF_CNT
and the flash change flag are discarded. -/
def execReferenceReturn (s : State) : Res :=
  .next (
    if !s.pow.refGone then s
    else
      let s := modPow s fun p => { p with refGone := false }
      let s := if s.start.mode = .refLost then coldState s else { modPow s fun p => { p with winFrom := 0 } with refCnt := 0 }
      modStart s fun x => { x with flashChg := false })

/-- SOURCE of a PLL by CLK_STAT bit (R546, R557). -/
def pllSource (n : Nat) : Nat :=
  if n = 2 then 0x22 else if 4 ≤ n ∧ n < 12 then 1 + n % 4 else if 12 ≤ n then 1 + (n - 12) / 6 else 0

/-- PLL_LOSS_OF_LOCK (R544): triage then requests a warm start. -/
def execPllLossOfLock (bit : Nat) (s : State) : Res :=
  onUnit 36 bit (.next (
    if bit = 0 || !bitOf s.clk.stat.toNat bit then s
    else
      let b := BitVec.ofNat 36 (2 ^ bit)
      let s := modClk s fun k =>
        { k with stat := k.stat &&& ~~~(b.setWidth 64), lost := k.lost ||| b.setWidth 64, down := k.down ||| b }
      attn s { cls := 0x0C, source := pllSource bit, unit := bit, d0 := BitVec.ofNat 64 bit }))

/-! ### Stopped clocks (R540 to R542) -/

/-- PRESS_PLL_RELOCK (R542): only when every press of vat 0 is stopped. -/
def execPressPllRelock (s : State) : Res :=
  .next (
    let quiet := (List.range 64).all fun c => (coreOf s c).press.stopped
    if fullService s && s.start.mode == .normal && !s.clk.fast && !s.clk.relock && quiet then
      modClk s fun k => { k with relock := true, stat := k.stat &&& ~~~(0x100 : Dword) }
    else s)

/-- RELOCK_END (R542): the waiting gates open. -/
def execRelockEnd (s : State) : Res :=
  .next (
    if !s.clk.relock then s
    else
      let s := modClk s fun k => { k with relock := false, fast := true, stat := if pllDown s 8 then k.stat else k.stat ||| 0x100 }
      (List.range 64).foldl openGate s)

/-- DOMAIN_WAKE (R540, R541): a wake request opens the gate of a stopped domain; a press of vat 0 waits for the end
of a relock. -/
def execDomainWake (d : Domain) (s : State) : Res :=
  match d with
  | .press c => onCore c (.next (if s.clk.relock && decide (c < 64) then s else openGate s c))
  | .cave ch => onUnit 16 ch (.next (wakeChan s ch))
  | .port p =>
    onUnit 12 p (.next (
      let q := portOf s p
      if s.start.mode == .normal && q.en && (q.state == 0 || (q.state == 7 && q.retrain)) then
        modPort s p fun q => { trainFrom q 1 (now s) with retrain := false, tries := 0 }
      else s))

/-! ### JTAG (R588 to R590) -/

/-- Whether the TAP drives its output: the rails are up and the power-good handshake has completed (R26). -/
def tapUp (s : State) : Bool := railsUp s && s.start.mode != .off

/-- The one-bit register of BYPASS, which captures 0. -/
def bypass (s : State) : State := if tapUp s then emit { s with extest := false } (.jtag [0]) else s

/-- BYPASS. -/
def execBypass (s : State) : Res := .next (bypass s)

/-- IDCODE. -/
def idcode : Nat := putFld Config.siliconRevision.toNat 4 28 + putFld 0xD4A1 16 12 + putFld Config.jedecCode.toNat 11 1 + 1
def execIdcode (s : State) : Res :=
  .next (if tapUp s then emit { s with extest := false } (.jtag (leBytes 4 idcode)) else s)

/-- Cells of the boundary register: one per signal contact, contacts 1 to 140 of C4 and 1 to 21 of C5 in this order from
TDO (R588, R599, R600; DESIGN CHOICE, log entry 134). -/
def scanLength : Nat := 161

/-- Whether a contact is an output of the module: the transmit lanes, REFCLK out and PERST_L of C4; TDO of C5. -/
def isOutput (i : Nat) : Bool := (decide (i < 128) && i % 4 < 2) || (decide (128 ≤ i) && decide (i < 140)) || i == 151

/-- The level of a contact where State gives it: an output that EXTEST drives, PERST_L, SMBALERT_L and the position contacts;
none where the outside or the traffic sets it. -/
def contactLevel (s : State) (i : Nat) : Option Bool :=
  if s.extest && isOutput i then some ((s.bscan.getD i 0).getLsbD 0)
  else if 136 ≤ i ∧ i < 140 ∧ s.start.mode ≠ .scanHold then some !(mget s.pcies {} (i - 136)).perstLow
  else if i = 155 then some !s.pow.alert
  else if 158 ≤ i ∧ i < 161 then some (bitOf s.pow.pos.toNat (i - 158))
  else none

/-- The levels that the boundary register captures; those that State does not give are free values (log entry 2). -/
def captured (s : State) : Bytes :=
  (List.range scanLength).map fun i =>
    match contactLevel s i with
    | some b => BitVec.ofNat 8 b.toNat
    | none => BitVec.ofNat 8 (Config.free (s.freeIx + i) % 2)

/-- The boundary register scanned: the levels captured and shifted out, cells shifted in behind them. -/
def scanCells (s : State) (cells : Bytes) (drive : Bool) : State :=
  let chain := captured s ++ cells
  emit { s with bscan := chain.drop cells.length, extest := drive, freeIx := s.freeIx + scanLength }
    (.jtag (chain.take cells.length))

/-- SAMPLE/PRELOAD (R588): the contacts keep what the module drives. -/
def execSamplePreload (cells : Bytes) (s : State) : Res := .next (if tapUp s then scanCells s cells false else s)

/-- EXTEST: the outputs take the levels of their cells; outside scan hold it is BYPASS (R590). -/
def execExtest (cells : Bytes) (s : State) : Res :=
  .next (if s.start.mode = .scanHold then scanCells s cells true else bypass s)

end Sys2Proof.Machine
end

