-- ==== Sys2Proof/Machine/Regen.lean ====
section
/-! DEFINITION. Regeneration of the quantised tensors (R253 to R270): smoothing, rotation, scales, shadow,
codebooks, codes, and the switch of a bank. -/

namespace Sys2Proof.Machine

/-! ### Weights (R257 to R260) -/

/-- Row a of SRC, as binary32. -/
def qwSrcRow (s : State) (r : QwRec) (a : Nat) : List Nat :=
  (List.range r.n).map fun c => rdNum s (r.src + 4 * (r.n * a + c)) 4

/-- Whether a binary32 is NaN or infinite (R261). -/
def notFinite (w : Nat) : Bool := fld w 30 23 == 255

/-- floor(log2 |v|) of a binary32; none for zero, infinity or NaN (R257). -/
def logOf (w : Nat) : Option Int :=
  match f32Dec w with
  | .fin _ m e => if m = 0 then none else some (ilog2 m e)
  | _ => none

/-- The smoothing exponent of a channel from its activation maximum and its row (R257). -/
def smoothExp (r : QwRec) (xmax : Nat) (row : List Nat) : Int :=
  let w := blockMax (row.map f32Dec)
  match logOf xmax with
  | none => 0
  | some x => if !r.smooth || w.1 == 0 then 0 else max (-31) (min 31 (Int.fdiv (x - ilog2 w.1 w.2) 2))

/-- The binary32 of 2 ^ h. -/
def f32Pow2 (h : Int) : Nat := (h + 127).toNat <<< 23

/-- Whether d_a of the rotation matrix is −1 (R258). -/
def rotNeg (a : Nat) : Bool := cultDraw 0 0 (BitVec.ofNat 64 a) % 2 == 1

/-- M[a][b] of size n as a DF8 element with block scale 127 − r (R258, R259). -/
def rotElem (n a b : Nat) : PElem :=
  let odd := popCount 7 ((45 * a % n) &&& b) % 2 == 1
  pElem 0 0 (if odd != rotNeg a then 0xB8 else 0x38) (some (127 - n.log2))

/-- One rotated weight: the passes H, M and L over a column of a block of n rows (R259). -/
def rotWeight (n b : Nat) (col : List Nat) : Nat :=
  [0, 1, 2].foldl
    (fun acc piece =>
      (pressOutput ((List.range n).map fun a => (pElem 3 piece (col.getD a 0) none, rotElem n a b)) acc 0).val) 0

/-- Size of the rotation; 1 for none (R254). -/
def QwRec.rotSize (r : QwRec) : Nat := match r.rot with | 1 => 32 | 2 => 128 | _ => 1

/-- The rotated rows of the smoothed rows (R259). -/
def rotRows (r : QwRec) (rows : List (List Nat)) : List (List Nat) :=
  let n := r.rotSize
  if n = 1 then rows
  else
    (List.range rows.length).map fun i =>
      let blk := (rows.drop (i / n * n)).take n
      (List.range r.n).map fun c => rotWeight n (i % n) (blk.map fun row => row.getD c 0)

/-- The scales of a row: one for each 32 columns (R260). -/
def rowScales (r : QwRec) (row : List Nat) : List Nat :=
  (List.range (r.n / 32)).map fun j => deriveScale false (((row.drop (32 * j)).take 32).map f32Dec)

/-- The scaled values of a row (R260). -/
def rowValues (row scl : List Nat) : List Num :=
  (row.zip (List.range row.length)).map fun wc => (f32Dec wc.1).scale (127 - (scl.getD (wc.2 / 32) 127 : Int))

/-! ### Codebooks and codes (R263 to R265) -/

/-- The positive entries g_0 to g_7 of a template (R263). -/
def template (t : Nat) : List Nat :=
  match t with
  | 0 => [0x00, 0x68, 0x70, 0x74, 0x78, 0x7A, 0x7C, 0x7E]
  | 1 => [0x00, 0x5C, 0x66, 0x6C, 0x71, 0x75, 0x79, 0x7D]
  | 2 => [0x00, 0x50, 0x5C, 0x64, 0x6B, 0x71, 0x77, 0x7C]
  | _ => [0x00, 0x48, 0x54, 0x60, 0x69, 0x72, 0x7A, 0x7F]

/-- The 16 entries of a template: code 8 + n holds −g_n, and code 8 is 0x00 (R263). -/
def templateBook (t : Nat) : List Nat := template t ++ (template t).map fun g => if g = 0 then 0 else g + 0x80

/-- The identity codebook of C8 (R264). -/
def identityBook : List Nat := (List.range 256).map fun n => if n = 0x80 then 0 else n

/-- A codebook entry in units of 2 ^ q, for q at or below −9; none for 0x80 (R265). -/
def entryAt (q : Int) (b : Nat) : Option Int :=
  match df8Dec b with
  | .fin neg m e => some (signedAt neg m e q)
  | _ => none

/-- The code and entry nearest to a value, in one unit; the lower code on equal distances (R265). -/
def nearest (book : List (Option Int)) (u : Int) : Option (Nat × Int) :=
  (book.zip (List.range book.length)).foldl
    (fun acc en =>
      match en.1 with
      | none => acc
      | some x =>
        match acc with
        | none => some (en.2, x)
        | some (_, y) => if (u - x).natAbs < (u - y).natAbs then some (en.2, x) else acc) none

/-- The unit of a group: the least exponent of its finite values, and at most −9. -/
def groupUnit (us : List Num) : Int :=
  us.foldl (fun q v => match v with | .fin _ _ e => min q e | _ => q) (-9)

/-- A value in units of 2 ^ q; an infinite one lies beyond every entry (R265). -/
def valueAt (q : Int) (v : Num) : Option Int :=
  match v with
  | .fin neg m e => some (signedAt neg m e q)
  | .inf neg => some (if neg then -(2 ^ (10 - q).toNat : Nat) else (2 ^ (10 - q).toNat : Nat))
  | .nan => none

/-- The code of a value under a codebook. A NaN has no nearest entry: its code is the free value `fv`. -/
def codeOf (book : List Nat) (fv : Nat) (v : Num) : Nat :=
  let q := groupUnit [v]
  match (valueAt q v).bind (nearest (book.map (entryAt q))) with
  | some (c, _) => c
  | none => fv % book.length

/-- The exact sum of squares of a group's distances to the entries of its codes, in units of 2 ^ (2q); none where
a value is not finite. -/
def errorSum (q : Int) (us : List Num) (book codes : List Nat) : Option Nat :=
  (us.zip codes).foldl
    (fun acc uc =>
      match acc, uc.1, entryAt q (book.getD uc.2 0) with
      | some a, .fin neg m e, some x => some (a + (signedAt neg m e q - x).natAbs ^ 2)
      | _, _, _ => none) (some 0)

/-- The template of a weight group: the least sum, equal sums to the lower number (R263). -/
def bestTemplate (us : List Num) : Nat :=
  let q := groupUnit us
  let err (t : Nat) : Option Nat := errorSum q us (templateBook t) (us.map (codeOf (templateBook t) 0))
  [1, 2, 3].foldl
    (fun best t => match err best, err t with | some a, some b => if b < a then t else best | _, _ => best) 0

/-- The codes of a group (R264, R265): the identity codebook takes the DF8 byte. -/
def groupCodes (identity : Bool) (book : List Nat) (fv : Nat → Nat) (us : List Num) : List Nat :=
  if identity then us.map fun v => (df8Enc .rne 0 v).1
  else (us.zip (List.range us.length)).map fun vi => codeOf book (fv vi.2) vi.1

/-- The assisted check of a group: chosen sum ÷ Σu² ≤ ERR_LIMIT (R266), as chosen sum ≤ ERR_LIMIT × Σu². A group whose
values are all zero has both sums 0 and passes (DESIGN CHOICE, log entry 121). -/
def groupPasses (limit : Nat) (us : List Num) (book codes : List Nat) : Bool :=
  let q := groupUnit us
  match errorSum q us book codes, errorSum q us [0] (us.map fun _ => 0), f32Dec limit with
  | some a, some t, .fin neg m e =>
    if neg && m != 0 then a == 0 && t == 0
    else decide (a * 2 ^ (-e).toNat ≤ t * m * 2 ^ e.toNat)
  | some _, some _, .inf neg => !neg
  | _, _, _ => false

/-! ### The regeneration of a record (R256, R261, R266 to R270) -/

/-- Two codes of four bits in a byte, the first in bits 3:0 (R53). -/
def packNibbles : List Nat → Bytes
  | a :: b :: cs => BitVec.ofNat 8 (a + 16 * b) :: packNibbles cs
  | [a] => [BitVec.ofNat 8 a]
  | [] => []

/-- What a regenerated bank holds: its regions in order, and whether every group passes the assisted check. -/
def bankOf (s : State) (r : QwRec) (client : Bool) (rows : List (List Nat)) : List Bytes × Bool :=
  let hs := (rows.zip (List.range r.k)).map fun ra => smoothExp r (rdNum s (r.actMax + 4 * ra.2) 4) ra.1
  let sm := (rows.zip hs).map fun rh => rh.1.map fun w => fMul w (f32Pow2 rh.2)
  let ws := rotRows r sm
  let scl := ws.map (rowScales r)
  let us := (ws.zip scl).map fun x => rowValues x.1 x.2
  let books := r.region r.spare 2
  let size := if r.c8 then 256 else 16
  let identity := r.c8 && !client
  let groups := (List.range (r.k / 128)).map fun g =>
    let gu := ((us.drop (128 * g)).take 128).flatten
    let book :=
      if client then (rdBytes s (books + size * g) size).map fun b => b.toNat
      else if r.c8 then identityBook
      else templateBook (bestTemplate gu)
    let codes := groupCodes identity book (fun i => Config.free (s.freeIx + 128 * r.n * g + i)) gu
    (book, codes, groupPasses r.errLimit gu book codes)
  let codes := groups.flatMap fun g => g.2.1
  let byte (n : Nat) : Byte := BitVec.ofNat 8 n
  ([if r.c8 then codes.map byte else packNibbles codes, scl.flatten.map byte, groups.flatMap fun g => g.1.map byte,
    hs.map fun h => byte (ofInt 8 h), ws.flatten.flatMap fun w => leBytes 2 (df16Enc .rne 0 (f32Dec w)).1],
    groups.all fun g => g.2.2)

/-- The QW_STAT bit that goes with a LAST code: FAIL 23, DEFER 22, FORCED 21 (R270, R276). -/
def qwBit (s : State) (code : Nat) : State :=
  let bit := if code = 1 ∨ code = 2 ∨ code = 3 then 0x800000 else if code = 4 then 0x400000 else if code = 5 then 0x200000 else 0
  { s with qw := { s.qw with stat := s.qw.stat ||| BitVec.ofNat 32 bit } }

/-- LAST of a record. -/
def qwLast (s : State) (i code : Nat) : State := qwBit (memWrite s (qwAddr s i + 0x3B) [BitVec.ofNat 8 code]) code

/-- DEFER_RUN of a record. -/
def qwDefer (s : State) (i n : Nat) : State := memWrite s (qwAddr s i + 0x3A) [BitVec.ofNat 8 n]

/-- The switch of a record in one write of two words: ACTIVE inverted, VERSION incremented, DEFER_RUN cleared, LAST (R267,
R269). -/
def qwSwitch (s : State) (i code : Nat) : State :=
  let a := qwAddr s i + 0x30
  let w0 := hubNum s a 8 ^^^ 2 ^ 63
  let w1 := hubNum s (a + 8) 8
  let w1 := fld w1 15 0 + putFld code 8 24 + putFld (fld w1 63 32 + 1) 32 32
  qwBit (memWrite s a (wordsB [w0, w1])) code

/-- Whether a write into the inactive bank of a record is still held: the bank is not complete (R267). -/
def bankPending (s : State) (r : QwRec) : Bool := s.turn.held.any fun h => h.meets r.spare (r.bankEnd r.spare - r.spare)

/-- The switch of a record, or its wait for a bank that is not complete. -/
def switchOr (s : State) (i code : Nat) : State :=
  if bankPending s (qwRec s i) then { s with qw := { s.qw with switches := mput s.qw.switches i code } } else qwSwitch s i code

/-- The hold count of the inactive bank cleared (R269). -/
def clearHold (s : State) (i : Nat) (r : QwRec) : State :=
  let a := qwAddr s i + 0x30
  let w := hubNum s a 8
  let keep := if r.active then mergeBits w 0 (2 ^ 30 - 1) else mergeBits w 0 ((2 ^ 30 - 1) <<< 32)
  memWrite s a (leBytes 8 keep)

/-- The regions written into the inactive bank. -/
def putBank (s : State) (r : QwRec) (parts : List Bytes) : State :=
  (parts.zip (List.range parts.length)).foldl (fun s p => memWrite s (r.region r.spare p.2) p.1) s

/-- The inactive bank left undefined by a failed record: free bytes throughout its regions (R261). -/
def spoilBank (s : State) (r : QwRec) : State :=
  let n := r.bankEnd r.spare - r.spare
  let s' := memWrite s r.spare ((List.range n).map fun i => BitVec.ofNat 8 (Config.free (s.freeIx + i)))
  { s' with freeIx := s.freeIx + n }

/-- One record of a regeneration in mode `mode`; `late` when the rind stands in for the client (R266). A record that is both
forced and late ends with LAST 0x05 (R269, R270; DESIGN CHOICE, log entry 121). -/
def regenRecord (mode : Nat) (late : Bool) (s : State) (i : Nat) : State :=
  let r := qwRec s i
  if !r.shapeOk then qwLast s i 2
  else if r.holds ≠ 0 && r.deferRun < r.deferMax then qwLast (qwDefer s i (r.deferRun + 1)) i 4
  else
    let forced := r.holds ≠ 0
    let s := if forced then clearHold s i r else s
    let rows := (List.range r.k).map (qwSrcRow s r)
    let poison := isBad s r.src (4 * r.k * r.n)
    let s := if poison then poisonMet s (badAt s r.src (4 * r.k * r.n)) 0 none else s
    if poison || rows.any (fun row => row.any notFinite) then qwLast (spoilBank s r) i 1
    else
      let b := bankOf s r (mode == 2 && !late) rows
      let s := putBank { s with freeIx := s.freeIx + r.k * r.n } r b.1
      let code := if forced then 5 else if late then 6 else 0
      if mode = 0 then switchOr s i code
      else { s with qw := { s.qw with checks := mput s.qw.checks i (b.2, code) } }

/-- A regeneration ends when no record's check or switch is to come. -/
def regenEnd (s : State) : State :=
  if s.qw.checks.isEmpty && s.qw.switches.isEmpty then
    { s with qw := { s.qw with stat := BitVec.ofNat 32 (mergeBits s.qw.stat.toNat (s.qw.stat.toNat + 1) 0xFFFF) } }
  else s

/-- The switches that waited for their banks performed where these are complete (R267). -/
def settleSwitches (s : State) : State :=
  if s.qw.switches.isEmpty then s
  else
    let go (s : State) (x : Nat × Nat) : State :=
      if bankPending s (qwRec s x.1) then s
      else qwSwitch { s with qw := { s.qw with switches := mdel s.qw.switches x.1 } } x.1 x.2
    let s := s.qw.switches.foldl go s
    if s.qw.switches.isEmpty then regenEnd s else s

/-- QW_REGENERATE (R256, R266): the records in table order. A client-assisted regeneration waits for the client's
fence or for the rind's decision at the deadline or once the lease has expired; what the client does after that decision
is discarded (R38). Writes into the tensors that it reads wait until then (R256). -/
def execQwRegenerate (s : State) : Res := onHub s <|
  .next (
    let s := settleSwitches s
    match s.qw.due with
    | [] => s
    | _ :: rest =>
      let mode := dutyMode s 6
      let late := mode == 2 && s.obj.rindTurn.contains 6
      let client := postDone s 6 && !controllerGone s
      if !fullService s || !s.qw.checks.isEmpty || !s.qw.switches.isEmpty || (mode == 2 && !late && !client) then s
      else
        let s := { s with qw := { s.qw with due := rest } }
        let s := modObj s fun o =>
          { o with
            contend := if rest.isEmpty then mdel o.contend 6 else mput o.contend 6 (now s), rindTurn := o.rindTurn.filter fun x => x ≠ 6
            posts := o.posts.filter fun p => p.fn ≠ 6 }
        let s := (List.range (fld s.qw.tblCnt.toNat 12 0)).foldl (regenRecord mode late) s
        regenEnd (flushHeld { s with qw := { s.qw with reads := if rest.isEmpty then [] else s.qw.reads } }))

/-- REGEN_CHECK_DONE (R266): the rind's check of record r allows or refuses the switch. -/
def execRegenCheckDone (r : Nat) (s : State) : Res := onHub s <|
  .next (
    match mget? s.qw.checks r with
    | none => s
    | some (pass, code) =>
      let s := { s with qw := { s.qw with checks := mdel s.qw.checks r } }
      regenEnd (if pass then switchOr (settleSwitches s) r code else qwLast (settleSwitches s) r 3))

end Sys2Proof.Machine
end

