-- ==== Sys2Proof/Machine/ThreadMem.lean ====
section
/-! DEFINITION. Thread accesses: loads and stores (R200, R201), atomics (R166 to R171, R203), fences (R204,
R313 to R316), control and status accesses (R331), and the events that carry them through the tracker
(R172, R173, R306, R312). -/

namespace Sys2Proof.Machine

/-! ### Addresses -/

/-- What an access by the program meets at an address of this module; addresses of other nodes are checked
there (R30, R167, R614). -/
def accCheck (s : State) (c a w : Nat) (kind : AccKind) : Option Status :=
  if !isLocal a then none
  else if isCsr a then
    if kind != .atom && csrOk s (.program c) a w (kind == .store) then none else some .addressFault
  else memCheck s a w

/-- The first of R210's conditions that the active lanes meet: misaligned, unmapped, not in service. -/
def laneFault (s : State) (c w space : Nat) (kind : AccKind) (raws : List Nat) : Option Status :=
  if raws.any fun a => a % w != 0 then some .alignFault
  else
    let fs := raws.filterMap fun a => accCheck s c (placeAddr s c space a) w kind
    if fs.contains .addressFault then some .addressFault else fs.head?

/-! ### Issue of an access -/

/-- The store lanes in the order in which they take effect. The manual gives none for lanes that store to
the same bytes: a free value orders them (log entry 2). -/
def storeOrder (s : State) (w : Nat) (ls : List LaneOp) : State × List LaneOp :=
  let meet := ls.any fun o => ls.any fun p => o.lane != p.lane && o.addr / w == p.addr / w
  if !meet then (s, ls)
  else
    let key (o : LaneOp) : Nat := freeVal s / 64 ^ o.lane % 64
    (drawn s, ls.foldl (fun acc o => (acc.filter fun p => key p ≤ key o) ++ o :: (acc.filter fun p => key o < key p)) [])

/-- Whether an earlier relaxed load with CACHE = 0b00 of the core still waits for bytes of a line: a later load that hit the
line could return an older value than it (R319). -/
def loadBehind (k : Core) (a : Nat) : Bool :=
  k.acc.any fun b => b.kind == .load && !b.bypass && b.acq < 4 && b.lanes.any fun p => p.got.isNone && p.addr / 64 == a / 64

/-- Lanes of a load that the L1 serves take the value of the line (R292, R318, R319). -/
def l1Lane (k : Core) (w : Nat) (o : LaneOp) : LaneOp :=
  if cacheable o.addr && !loadBehind k o.addr then { o with got := l1Hit k o.addr w } else o

/-- What an access does to the L1 of its core when it issues (R168, R293). -/
def l1Issue (k : Core) (a : Acc) : Core :=
  match a.kind with
  | .load => k
  | .store => a.lanes.foldl (fun k o => l1Store k o.addr a.width o.data a.bypass) k
  | .atom => a.lanes.foldl (fun k o => { k with l1 := mdel k.l1 (o.addr / 64) }) k

/-- An access put into the tracker and sent where nothing holds it. -/
def putAcc (s : State) (c : Nat) (a : Acc) : State :=
  let s := modCore s c fun k => { l1Issue k a with acc := k.acc ++ [a], isn := k.isn + 1 }
  proceed s c a.n

/-- What an instruction asks of memory: its kind, bytes per lane, destination, atomic code, CACHE, acquire
and release scopes (0 where they order nothing). -/
structure Ask where
  kind : AccKind
  width : Nat
  dst : Nat := 255
  op : Nat := 0
  bypass : Bool := false
  acq : Nat := 0
  rel : Nat := 0
  deriving DecidableEq, Repr

/-- The access of some lanes as it enters the tracker, as a part of the instruction with issue number `ins` (R172,
R175, R313, R331). -/
def newAcc (x : Issue) (q : Ask) (n ins : Nat) (csr : Bool) (ls : List LaneOp) : Acc :=
  let own := if csr && q.kind == .store then [(n, max 5 q.rel)] else if 4 ≤ q.rel then [(n, q.rel)] else []
  { n := n, ins := ins, grp := x.g, blk := x.grp.blk, ctx := x.blk.ctx, kind := q.kind, width := q.width, lanes := ls, dst := q.dst,
    op := q.op, bypass := q.bypass, acq := q.acq, waits := (if q.kind == .load then [] else x.grp.rels) ++ own, rel := q.rel,
    st := .conflict, home := false, due := 0, csr := csr, launch := x.blk.launch }

/-- Loads of control and status registers are performed at once, lane by lane (R331). -/
def csrLoads (s : State) (ls : List LaneOp) : State × List LaneOp :=
  ls.foldl
    (fun r o =>
      let v := csrRead r.1 o.addr
      (v.2, r.2 ++ [{ o with got := some v.1 }])) (s, [])

/-- The group once the access has issued: what it holds until later (R313, R314). -/
def groupAfter (grp : Group) (q : Ask) (ns : List Nat) : Group :=
  { grp with
    holds := grp.holds ++ (if 4 ≤ q.acq then ns else [])
    rels := grp.rels ++ (if 4 ≤ q.rel then ns.map fun n => (n, q.rel) else []) }

/-- An access of the active lanes issued: the lanes that reach memory, then those that reach control and
status space, each under its own issue number. -/
def issueAcc (s : State) (x : Issue) (q : Ask) (ls : List LaneOp) : State :=
  let mems := ls.filter fun o => !isCsr o.addr
  let csrs := ls.filter fun o => isCsr o.addr
  let n := x.k.isn
  let m := if mems.isEmpty then n else n + 1
  let ns := (if mems.isEmpty then [] else [n]) ++ (if csrs.isEmpty then [] else [m])
  let s := advance s x (groupAfter x.grp q ns)
  let s :=
    if mems.isEmpty then s
    else
      let r := if q.kind == .store then storeOrder s q.width mems
        else if q.kind == .load && !q.bypass && q.acq < 4 then (s, mems.map (l1Lane (coreOf s x.c) q.width)) else (s, mems)
      putAcc r.1 x.c (newAcc x q n n false r.2)
  if csrs.isEmpty then s
  else
    let r := if q.kind == .load then csrLoads s csrs else (s, csrs)
    putAcc r.1 x.c (newAcc x q m n true r.2)

/-- A memory or atomic instruction from its active lanes: faults first, then the order of control and status
accesses and the room of the ladle queue, then its issue (R210, R303, R331). -/
def access (s : State) (x : Issue) (q : Ask) (space : Nat) (lane : Nat → LaneOp) : Res :=
  if x.act.isEmpty then .next (advance s x x.grp)
  else
    let ops := x.act.map lane
    match laneFault s x.c q.width space q.kind (ops.map (·.addr)) with
    | some st => .next (issueFault s x st)
    | none =>
      let ops := ops.map fun o => { o with addr := placeAddr s x.c space o.addr, node := if space = 0 then 0xFFFF else fld o.addr 63 48 }
      let csr := ops.any fun o => isCsr o.addr
      if csr && q.kind == .load && !(csrPending x.k).isEmpty then .next s
      else if submits ops = 0 || q.kind != .store then .next (issueAcc s x q ops)
      else if mayTake x.k.ladleStall x.g (ladleRoom x.k) then
        .next (issueAcc (modCore s x.c fun k => { k with ladleStall := k.ladleStall.filter fun g => g ≠ x.g }) x q ops)
      else
        .next (modCore s x.c fun k =>
          { k with
            fullStall := true
            ladleStall := if k.ladleStall.contains x.g then k.ladleStall else k.ladleStall ++ [x.g] })

/-! ### Loads and stores -/

/-- LOAD (R200, R314). -/
def execLoad (c g : Nat) (sub : BitVec 4) (i : Insn) (s : State) : Res :=
  let w := subWidth sub
  issue s c g (loadForm sub i) i fun x =>
    access s x { kind := .load, width := w, dst := iDst i, bypass := memCache i == 1, acq := memScope i } (subSpace sub)
      fun l => { lane := l, addr := rawAddr x.grp l (iA i) (subSpace sub) (memOff i) }

/-- STORE (R200, R313). -/
def execStore (c g : Nat) (sub : BitVec 4) (i : Insn) (s : State) : Res :=
  let w := subWidth sub
  issue s c g (storeForm sub i) i fun x =>
    access s x { kind := .store, width := w, bypass := memCache i == 1, rel := memScope i } (subSpace sub)
      fun l =>
        { lane := l, addr := rawAddr x.grp l (iA i) (subSpace sub) (memOff i)
          data := regWide x.grp l (memB i) (wordsOf w) % 2 ^ (8 * w) }

/-! ### Atomics -/

/-- An ATM instruction of operation `op` (R166, R167, R203). -/
def atomic (op : Nat) (c g : Nat) (wide : Bool) (i : Insn) (s : State) : Res :=
  let w := if wide then 8 else 4
  let n := wordsOf w
  issue s c g (atomForm op wide i) i fun x =>
    access s x
      { kind := .atom, width := w, dst := iDst i, op := op, acq := if bitOf (atmOrd i) 0 then atmScope i else 0
        rel := if bitOf (atmOrd i) 1 then atmScope i else 0 } (atmSpace i)
      fun l =>
        { lane := l, addr := rawAddr x.grp l (iA i) (atmSpace i) 0, data := regWide x.grp l (iB i) n
          alt := if op = 10 then regWide x.grp l (iC i) n else 0 }

/-- ATOM_ADD. -/
def execAtomAdd (c g : Nat) (wide : Bool) (i : Insn) (s : State) : Res := atomic 0 c g wide i s
/-- ATOM_FADD (R169). -/
def execAtomFadd (c g : Nat) (wide : Bool) (i : Insn) (s : State) : Res := atomic 1 c g wide i s
/-- ATOM_MIN_S. -/
def execAtomMinS (c g : Nat) (wide : Bool) (i : Insn) (s : State) : Res := atomic 2 c g wide i s
/-- ATOM_MIN_U. -/
def execAtomMinU (c g : Nat) (wide : Bool) (i : Insn) (s : State) : Res := atomic 3 c g wide i s
/-- ATOM_MAX_S. -/
def execAtomMaxS (c g : Nat) (wide : Bool) (i : Insn) (s : State) : Res := atomic 4 c g wide i s
/-- ATOM_MAX_U. -/
def execAtomMaxU (c g : Nat) (wide : Bool) (i : Insn) (s : State) : Res := atomic 5 c g wide i s
/-- ATOM_AND. -/
def execAtomAnd (c g : Nat) (wide : Bool) (i : Insn) (s : State) : Res := atomic 6 c g wide i s
/-- ATOM_OR. -/
def execAtomOr (c g : Nat) (wide : Bool) (i : Insn) (s : State) : Res := atomic 7 c g wide i s
/-- ATOM_XOR. -/
def execAtomXor (c g : Nat) (wide : Bool) (i : Insn) (s : State) : Res := atomic 8 c g wide i s
/-- ATOM_EXCH (R171). -/
def execAtomExch (c g : Nat) (wide : Bool) (i : Insn) (s : State) : Res := atomic 9 c g wide i s
/-- ATOM_CAS (R171). -/
def execAtomCas (c g : Nat) (wide : Bool) (i : Insn) (s : State) : Res := atomic 10 c g wide i s

/-! ### Fences -/

/-- A fence that orders beyond the core, put in force (R313, R315, R316). -/
def putFence (s : State) (x : Issue) (scope : Nat) (acq rel : Bool) (range : Option (Nat × Nat)) : State :=
  let n := x.k.isn
  let grp := groupAfter x.grp { kind := .load, width := 4, acq := if acq then scope else 0, rel := if rel then scope else 0 } [n]
  let f : FencePend := { n := n, grp := x.g, rel := if rel then scope else 0, acq := acq, range := range }
  let s := advance s x grp
  settleFences (modCore s x.c fun k => { k with isn := k.isn + 1, fences := k.fences ++ [f] }) x.c

/-- FENCE (R204, R309, R313, R315, R316). -/
def execFence (c g : Nat) (i : Insn) (s : State) : Res :=
  let ranged := atmSpace i == 1
  issue s c g (fenceForm i) i fun x =>
    if x.act.isEmpty || atmScope i < 4 then .next (advance s x x.grp)
    else
      let l := lowest x
      let range := if ranged then some (reachKey s (regPair x.grp l (iA i)), reg x.grp l (iB i)) else none
      .next (putFence s x (atmScope i) (bitOf (atmOrd i) 0) (bitOf (atmOrd i) 1) range)

/-! ### Events of the tracker -/

/-- The access of an issue number. -/
def findAcc (s : State) (c n : Nat) : Option Acc := (coreOf s c).acc.find? fun a => a.n == n

/-- TRACKED_ACCESS_RELEASE (R173): an access that waits for earlier ones goes on once none of them is left. -/
def execTrackedAccessRelease (c n : Nat) (s : State) : Res :=
  onCore c (.next (
    match findAcc s c n with
    | some a => if a.st == .conflict then proceed s c n else s
    | none => s))

/-- RELEASE_WAIT_END (R312, R313): every earlier access of the core has reached the wait point. -/
def execReleaseWaitEnd (c n : Nat) (s : State) : Res :=
  onCore c (.next (
    match releaseScope (coreOf s c) n with
    | some scope => if allReached (coreOf s c) c n scope then endRelease s c n else s
    | none => s))

/-- Lanes of an access whose part at this module's memory is not performed. -/
def homeLanes (a : Acc) : List LaneOp := a.lanes.filter fun o => isLocal o.addr && o.got.isNone

/-- The launch that an access belongs to. -/
def accLaunch (s : State) (c : Nat) (a : Acc) : Nat × Nat :=
  match mget? (coreOf s c).blocks a.blk with | some b => b.launch | none => (0, 0)

/-- A channel of the cave that an access waits for asked to wake, granules raised. -/
def askLanes (s : State) (ls : List LaneOp) (w : Nat) (wr : Bool) : State :=
  ls.foldl (fun s o => if wr then askRoom s o.addr w else askWake s o.addr w) s

/-- Whether memory serves a lane of an access now: everything that left before it is performed at its block, no
channel is asleep, and for a write nothing holds it. The own scratchpad is held by the tracker alone (R139, R140,
R283, R311, R317, R429). -/
def laneReady (s : State) (c : Nat) (a : Acc) (o : LaneOp) : Bool :=
  !laneBehind s c a o && !asleep s o.addr a.width && (a.kind == .load || ownSpad c o || !(writeHeld s o.addr a.width || optHeld s c o.addr a.width))

/-- The lanes of a part at home that memory serves now, and those that wait (R307). -/
def servedLanes (s : State) (c : Nat) (a : Acc) : List LaneOp := (homeLanes a).filter (laneReady s c a)
def waitingLanes (s : State) (c : Nat) (a : Acc) : List LaneOp := (homeLanes a).filter fun o => !laneReady s c a o

/-- The lanes of a store that land now: those of some of the 64-byte blocks that memory serves, which ones is free (R307). -/
def landedLanes (s : State) (c : Nat) (a : Acc) : List LaneOp :=
  let ls := servedLanes s c a
  let bs := (landNow s (ls.map fun o => o.addr / 64).eraseDups).1
  ls.filter fun o => bs.contains (o.addr / 64)

/-- The lanes `served` given their values; the part at home is performed once none is left. -/
def fillGot (s : State) (c : Nat) (a : Acc) (served : List LaneOp) (v : LaneOp → Nat) : State :=
  let ls := a.lanes.map fun o => if served.contains o then { o with got := some (v o) } else o
  modAcc s c a.n fun b => { b with lanes := ls, home := ls.all fun o => !isLocal o.addr || o.got.isSome }

/-- Poison met, in memory or in a transfer that has raised its own event: the context is lost with MEM_POISON and nothing is
returned (R296, R549). -/
def accPoison (s : State) (c n : Nat) (a : Acc) (xs : List (Nat × Nat)) : State :=
  let s := match firstBad s xs with | some u => poisonMet s (some u) c (some a.ctx) | none => s
  let s := modAcc s c n fun a => { a with lanes := a.lanes.map fun o => { o with got := some (o.got.getD 0) }, dst := 255, home := true }
  programFault s c a.ctx (accLaunch s c a) .memPoison

/-- The values of a load or an atomic put into the registers of its lanes (R200). -/
def putLanes (k : Core) (a : Acc) : Core :=
  match mget? k.groups a.grp with
  | none => k
  | some grp =>
    let grp := a.lanes.foldl (fun grp o => setUnits grp o.lane a.dst (o.got.getD 0) (wordsOf a.width)) grp
    { k with groups := mput k.groups a.grp grp }

/-- An access whose values are all known returns them; an acquire then empties the L1 and lets its group go
on (R314). -/
def returnAcc (s : State) (c n : Nat) : State :=
  match findAcc s c n with
  | none => s
  | some a =>
    let s := modCore s c fun k => putLanes k a
    let s := if 4 ≤ a.acq then modCore s c fun k => dropHold (l1Drop k none) a.grp n else s
    settleAcc (modAcc s c n fun a => { a with home := true }) c n

/-- Lines that a load allocates at this module's memory (R292, R293). -/
def fillLines (s : State) (c : Nat) (a : Acc) (ls : List LaneOp) : State :=
  if a.bypass || 4 ≤ a.acq then s
  else
    let lines := ((ls.filter fun o => cacheable o.addr).map fun o => o.addr / 64).eraseDups
    lines.foldl
      (fun s line =>
        if isBad s (64 * line) 64 then s
        else match fillLine (coreOf s c) a.n line (rdBytes s (64 * line) 64) with
          | some d => l1Fill s c line d
          | none => s) s

/-- LOAD_RETURN (R306): the lanes of the part at home that memory serves now are read, and once all lanes have their
values they return. -/
def execLoadReturn (c n : Nat) (s : State) : Res :=
  onCore c (.next (
    match findAcc s c n with
    | none => s
    | some a =>
      if a.kind != .load || a.st != .sent then s
      else
        let ls := servedLanes s c a
        let rest := waitingLanes s c a
        if a.bad || ls.any fun o => isBad s o.addr a.width then settleAcc (accPoison s c n a (ls.map fun o => (o.addr, a.width))) c n
        else
          let t := fillLines (fillGot s c a ls fun o => rdNum s o.addr a.width) c a ls
          if rest.isEmpty && a.due == 0 then returnAcc t c n else askLanes t rest a.width false))

/-- The ladle command just submitted by a lane of access n: the accesses before n are its release (R326). -/
def releasedBy (s : State) (c order n : Nat) : State :=
  modCore s c fun k => { k with ladleQ := k.ladleQ.map fun l => if l.order = order then { l with n := n } else l }

/-- Stores to control and status space performed lane by lane until one has to wait (R331). -/
def csrStores (s : State) (c n : Nat) : List LaneOp → State
  | [] => settleAcc (modAcc s c n fun a => { a with home := true }) c n
  | o :: ls =>
    match csrWrite s o.addr o.data with
    | none => csrAsk s o.addr o.data
    | some t =>
      let t := if t.ladleOrder = s.ladleOrder then t else releasedBy t c s.ladleOrder n
      csrStores (modAcc t c n fun a => { a with lanes := a.lanes.map fun p => if p.lane = o.lane then { p with got := some 0 } else p })
        c n ls

/-- WRITE_PERFORMED (R306, R307): lanes of a store that memory takes now are applied at the memory that holds their
bytes. -/
def execWritePerformed (c n : Nat) (s : State) : Res :=
  onCore c (.next (
    match findAcc s c n with
    | none => s
    | some a =>
      if a.kind != .store || a.st != .sent then s
      else if a.home then settleAcc s c n
      else
        let ls := homeLanes a
        if a.csr then
          if (csrPending (coreOf s c)).any fun b => decide (b.n < n) then s else csrStores s c n ls
        else
          let now_ := landedLanes s c a
          let rest := waitingLanes s c a
          let s := now_.foldl (fun s o => memPutNum s o.addr a.width o.data) (fillGot (drawn s) c a now_ fun _ => 0)
          settleAcc (askLanes s rest a.width true) c n))

/-- The lanes that one memory operation of an atomic performs: those of the first address together, or the
first alone (R170, R171). -/
def atomNext (a : Acc) : List LaneOp :=
  match homeLanes a with
  | [] => []
  | o :: ls => if a.op = 9 ∨ a.op = 10 then [o] else o :: ls.filter fun p => p.addr = o.addr

/-- The lanes performed one after another in ascending order, each with the value it finds. -/
def atomRun (a : Acc) (old : Nat) : List LaneOp → Nat × List (Nat × Nat)
  | [] => (old, [])
  | o :: ls =>
    let r := atomRun a (atomNew a.op (8 * a.width) old o.data o.alt) ls
    (r.1, (o.lane, old) :: r.2)

/-- ATOMIC_PERFORMED (R168): the next memory operation of an atomic at this module's memory; with none left and
no response due, its old values return. -/
def execAtomicPerformed (c n : Nat) (s : State) : Res :=
  onCore c (.next (
    match findAcc s c n with
    | none => s
    | some a =>
      if a.kind != .atom || a.st != .sent then s
      else
        let ls := atomNext a
        match ls with
        | [] => if a.bad then settleAcc (accPoison s c n a []) c n else if a.due = 0 then returnAcc s c n else s
        | o :: _ =>
          if !ls.all (laneReady s c a) then askLanes s ls a.width true
          else if a.bad || isBad s o.addr a.width then settleAcc (accPoison s c n a [(o.addr, a.width)]) c n
          else
            let r := atomRun a (rdNum s o.addr a.width) ls
            let s := memPutNum s o.addr a.width r.1
            let s := modAcc s c n fun a =>
              let ls := a.lanes.map fun p => match r.2.lookup p.lane with | some v => { p with got := some v } | none => p
              { a with lanes := ls, home := ls.all fun o => !isLocal o.addr || o.got.isSome }
            match findAcc s c n with
            | some b => if (homeLanes b).isEmpty && b.due == 0 then returnAcc s c n else s
            | none => s))

end Sys2Proof.Machine
end

