-- ==== Sys2Proof/Machine/Threads.lean ====
section
/-! DEFINITION. Thread instructions that use no memory: control (R194, R195, R158 to R163), integer
(R196), binary32 (R197, R198), predicates (R199) and special registers (R209). -/

namespace Sys2Proof.Machine

/-! ### Control (R194) -/

/-- NOP (R194). -/
def execNop (c g : Nat) (i : Insn) (s : State) : Res := issue s c g (formR []) i fun x => .next (advance s x x.grp)

/-- The sides of a branch: each target address with its lanes, addresses ascending (R189). -/
def sidesOf (ts : List (Nat × Nat)) : List Path :=
  let m := ts.foldl (fun (m : Map (BitVec 32)) lt => mput m lt.2 (mget m 0 lt.2 ||| BitVec.ofNat 32 (2 ^ lt.1))) []
  m.map fun kv => { lanes := kv.2, pc := kv.1 }

/-- The side that runs: the lowest that did not branch backward, else the lowest (R159, R189). -/
def runningSide (back : Nat → Bool) (sides : List Path) : Option Path :=
  match sides.find? fun p => !back p.pc with
  | some p => some p
  | none => sides.head?

/-- A branch of the active threads, each to its own target, the inactive ones at the next word; `back` tells which
targets are backward (R189, R159, R195). PATH_SWITCH is set where the whole running path goes to the tail at a backward
branch, not where a branch splits it (R182; DESIGN CHOICE, log entry 100). -/
def branchTo (s : State) (x : Issue) (grp : Group) (target : Nat → Nat) (back : Nat → Bool) : State :=
  match grp.paths with
  | [] => s
  | p :: ps =>
    let idle := (bitsOf 32 p.lanes.toNat).filter fun l => !x.act.contains l
    let sides := sidesOf (x.act.map (fun l => (l, target l)) ++ idle.map fun l => (l, x.pc + 8))
    match sides with
    | [q] =>
      if !x.act.isEmpty && back q.pc && !ps.isEmpty then
        let s := putIssue s x { grp with paths := ps ++ [q] }
        modCore s x.c fun k => k.flag pathSwitchBit
      else putIssue s x { grp with paths := q :: ps }
    | sides =>
      match runningSide back sides with
      | some q => putIssue s x { grp with paths := q :: (ps ++ sides.filter fun r => r.pc ≠ q.pc) }
      | none => s

/-- The target of a relative branch (R194). -/
def relTarget (x : Issue) (i : Insn) : Nat := ofInt 64 (x.pc + 8 * sext 32 (iImm i))

/-- A relative branch is backward when IMM32 is not above 0, wherever its target lies (R195). -/
def relBack (x : Issue) (i : Insn) (t : Nat) : Bool := decide (sext 32 (iImm i) ≤ 0) && t == relTarget x i

/-- BRA (R194). -/
def execBra (c g : Nat) (i : Insn) (s : State) : Res :=
  issue s c g braForm i fun x => .next (branchTo s x x.grp (fun _ => relTarget x i) (relBack x i))

/-- CALL: the return address into a pair, then as BRA (R194). -/
def execCall (c g : Nat) (i : Insn) (s : State) : Res :=
  issue s c g (callForm i) i fun x =>
    .next (branchTo s x (x.act.foldl (fun grp l => setPair grp l (iDst i) (x.pc + 8)) x.grp)
      (fun _ => relTarget x i) (relBack x i))

/-- Whether a register target is legal (R195). -/
def targetOk (v : Nat) : Bool := v % 8 == 0 && decide (v < 2 ^ 48)

/-- A branch of each active thread to the address in its pair (R194, R195). -/
def regBranch (c g : Nat) (i : Insn) (s : State) : Res :=
  issue s c g (jmpForm i) i fun x =>
    let t := fun l => regPair x.grp l (iA i)
    if x.act.all fun l => targetOk (t l) then .next (branchTo s x x.grp t fun a => decide (a ≤ x.pc))
    else .next (issueFault s x .instrFault)

/-- JMP (R194, R195). -/
def execJmp (c g : Nat) (i : Insn) (s : State) : Res := regBranch c g i s

/-- RET acts as JMP (R194). -/
def execRet (c g : Nat) (i : Insn) (s : State) : Res := regBranch c g i s

/-! ### Barriers and the end of threads -/

/-- Threads of a block that have not ended. -/
def liveThreads (k : Core) (b : Nat) : Nat :=
  (k.groups.map fun kv => if kv.2.blk = b then 32 - popCount 32 kv.2.ended.toNat else 0).sum

/-- Whether a barrier has its count (R163). -/
def barrierFull (k : Core) (b : Nat) (r : Barrier) : Bool :=
  if r.target = 0 then decide (liveThreads k b ≤ r.arrived) else decide (r.target ≤ r.arrived + r.gone)

/-- A group whose lanes at barrier `n` may go on. -/
def releaseLanes (n : Nat) (grp : Group) : Group :=
  { grp with barDone := grp.barDone ||| mget grp.barWait 0 n, barWait := mdel grp.barWait n }

/-- Barrier `n` of block `b` completed and reset when it has its count (R163). -/
def settleBarrier (b n : Nat) (k : Core) : Core :=
  match mget? k.blocks b with
  | none => k
  | some blk =>
    match mget? blk.bars n with
    | none => k
    | some r =>
      if barrierFull k b r then
        { k with
          groups := k.groups.map fun kv => if kv.2.blk = b then (kv.1, releaseLanes n kv.2) else kv
          blocks := mput k.blocks b { blk with bars := mdel blk.bars n } }
      else k

/-- Arrivals of `m` lanes of a group at barrier `n`, with the count asked for. Where a later arrival names another count
than the ones before it, the barrier completes at the latest count (DESIGN CHOICE, log entry 119). -/
def arrive (k : Core) (b n m count : Nat) : Core :=
  match mget? k.blocks b with
  | none => k
  | some blk =>
    let r := (mget? blk.bars n).getD { arrived := 0, gone := 0, target := count }
    { k with blocks := mput k.blocks b { blk with bars := mput blk.bars n { r with arrived := r.arrived + m, target := count } } }

/-- BAR (R163). A path that still stands at a barrier that has completed, and that merges with a path which arrives for its
next use (R160), goes on with it once that use completes; its own lanes are not counted again (DESIGN CHOICE, log entry
119). -/
def execBar (c g : Nat) (i : Insn) (s : State) : Res :=
  issue s c g (srcForm i) i fun x =>
    if x.act.isEmpty then .next (advance s x x.grp)
    else
      let count := reg x.grp (lowest x) (iA i)
      let n := iMod i % 16
      let b := x.grp.blk
      if 32 * x.blk.g < count then .next (issueFault s x .instrFault)
      else
        let mask := laneMask x.act
        let fresh := mask &&& ~~~(x.grp.barDone ||| mget x.grp.barWait 0 n)
        let grp := { x.grp with barWait := mset x.grp.barWait 0 n (mget x.grp.barWait 0 n ||| fresh) }
        let k := { x.k with groups := mput x.k.groups g grp }
        let k := if fresh = 0 then k else settleBarrier b n (arrive k b n (popCount 32 fresh.toNat) count)
        let grp := (mget? k.groups g).getD grp
        let s := setCore s c k
        if mask &&& ~~~grp.barDone = 0 then .next (advance s x { grp with barDone := grp.barDone &&& ~~~mask })
        else .next (waitPath s x grp)

/-- SYNCG (R161). -/
def execSyncg (c g : Nat) (i : Insn) (s : State) : Res :=
  issue s c g (srcForm i) i fun x =>
    if x.act.isEmpty then .next (advance s x x.grp)
    else
      let named := BitVec.ofNat 32 (reg x.grp (lowest x) (iA i)) &&& ~~~x.grp.ended
      let held := match x.grp.paths with | p :: _ => p.lanes | [] => 0
      if named &&& ~~~held = 0 then .next (advance s x x.grp) else .next (waitPath s x x.grp)

/-- The block's end told to its launch, once all of its groups have ended (R153, R272). -/
def settleBlock (s : State) (c b : Nat) : State :=
  let k := coreOf s c
  match mget? k.blocks b with
  | none => s
  | some blk =>
    if !blk.told && k.groups.all (fun kv => kv.2.blk ≠ b || kv.2.paths.isEmpty) then
      let s := modCore s c fun k => { k with blocks := mput k.blocks b { blk with told := true } }
      modCmd s blk.launch.1 blk.launch.2 fun m => { m with left := m.left - 1 }
    else s

/-- EXIT: the active threads end; they count as arrived at every pending barrier of the block (R153, R163). -/
def execExit (c g : Nat) (i : Insn) (s : State) : Res :=
  issue s c g (formR []) i fun x =>
    if x.act.isEmpty then .next (advance s x x.grp)
    else
      let mask := laneMask x.act
      let b := x.grp.blk
      let paths := match x.grp.paths with
        | [] => []
        | p :: ps =>
          let p := { p with lanes := p.lanes &&& ~~~mask, pc := x.pc + 8 }
          if p.lanes = 0 then ps else p :: ps
      let s := putIssue s x { x.grp with paths := paths, ended := x.grp.ended ||| mask }
      let goneBy := x.act.length
      let s := modCore s c fun k =>
        let k := match mget? k.blocks b with
          | none => k
          | some blk => { k with blocks := mput k.blocks b { blk with bars := blk.bars.map fun kv => (kv.1, { kv.2 with gone := kv.2.gone + goneBy }) } }
        (List.range 16).foldl (fun k n => settleBarrier b n k) k
      .next (settleBlock s c b)

/-! ### Integer operations (R196) -/

/-- A 32-bit operation of a and b in forms R and I. -/
def intOp (c g : Nat) (i : Insn) (s : State) (f : Nat → Nat → Nat) : Res :=
  laneOp s c g (intForm i) i fun src grp l => setReg grp l (iDst i) (f (reg src l (iA i)) (operandB src l i) % 2 ^ 32)

/-- A 32-bit operation of a alone, form R. -/
def intOp1 (c g : Nat) (i : Insn) (s : State) (f : Nat → Nat) : Res :=
  laneOp s c g (int1Form i) i fun src grp l => setReg grp l (iDst i) (f (reg src l (iA i)) % 2 ^ 32)

/-- MOV: SRC_A is unused. -/
def execMov (c g : Nat) (i : Insn) (s : State) : Res :=
  laneOp s c g (movForm i) i fun src grp l => setReg grp l (iDst i) (operandB src l i)

def execAdd (c g : Nat) (i : Insn) (s : State) : Res := intOp c g i s fun a b => a + b
def execSub (c g : Nat) (i : Insn) (s : State) : Res := intOp c g i s fun a b => a + (2 ^ 32 - b)
def execMullo (c g : Nat) (i : Insn) (s : State) : Res := intOp c g i s fun a b => a * b
def execMulhiS (c g : Nat) (i : Insn) (s : State) : Res :=
  intOp c g i s fun a b => ofInt 32 ((sext 32 a * sext 32 b) / (2 ^ 32 : Nat))
def execMulhiU (c g : Nat) (i : Insn) (s : State) : Res := intOp c g i s fun a b => (a * b) / 2 ^ 32

/-- MAD: low 32 bits of a × b + c. -/
def execMad (c g : Nat) (i : Insn) (s : State) : Res :=
  laneOp s c g (triForm i) i fun src grp l =>
    setReg grp l (iDst i) ((reg src l (iA i) * reg src l (iB i) + reg src l (iC i)) % 2 ^ 32)

def execAnd (c g : Nat) (i : Insn) (s : State) : Res := intOp c g i s fun a b => a &&& b
def execOr (c g : Nat) (i : Insn) (s : State) : Res := intOp c g i s fun a b => a ||| b
def execXor (c g : Nat) (i : Insn) (s : State) : Res := intOp c g i s fun a b => a ^^^ b
def execShl (c g : Nat) (i : Insn) (s : State) : Res := intOp c g i s fun a b => a <<< (b % 32)
def execShr (c g : Nat) (i : Insn) (s : State) : Res := intOp c g i s fun a b => a >>> (b % 32)
def execSar (c g : Nat) (i : Insn) (s : State) : Res :=
  intOp c g i s fun a b => ofInt 32 (sext 32 a >>> (b % 32))
def execMinS (c g : Nat) (i : Insn) (s : State) : Res := intOp c g i s fun a b => if sext 32 a ≤ sext 32 b then a else b
def execMinU (c g : Nat) (i : Insn) (s : State) : Res := intOp c g i s fun a b => min a b
def execMaxS (c g : Nat) (i : Insn) (s : State) : Res := intOp c g i s fun a b => if sext 32 a ≤ sext 32 b then b else a
def execMaxU (c g : Nat) (i : Insn) (s : State) : Res := intOp c g i s fun a b => max a b
def execPopc (c g : Nat) (i : Insn) (s : State) : Res := intOp1 c g i s fun a => popCount 32 a
def execClz (c g : Nat) (i : Insn) (s : State) : Res :=
  intOp1 c g i s fun a => if a = 0 then 32 else 31 - a.log2

/-- SEL: a when p[SRC_C[2:0]] is 1, otherwise b. -/
def execSel (c g : Nat) (i : Insn) (s : State) : Res :=
  laneOp s c g (selForm i) i fun src grp l =>
    setReg grp l (iDst i) (if pred src l (iC i % 8) then reg src l (iA i) else reg src l (iB i))

/-- LANE.RD: a as held by lane b[4:0], active or not. -/
def execLaneRd (c g : Nat) (i : Insn) (s : State) : Res :=
  laneOp s c g (laneRdForm i) i fun src grp l =>
    setReg grp l (iDst i) (reg src (reg src l (iB i) % 32) (iA i))

/-- A 64-bit operation on pairs (R196). -/
def intOp64 (c g : Nat) (i : Insn) (s : State) (f : Nat → Nat → Nat) : Res :=
  laneOp s c g (int64Form i) i fun src grp l => setPair grp l (iDst i) (f (regPair src l (iA i)) (operandB64 src l i) % 2 ^ 64)

def execAdd64 (c g : Nat) (i : Insn) (s : State) : Res := intOp64 c g i s fun a b => a + b
def execSub64 (c g : Nat) (i : Insn) (s : State) : Res := intOp64 c g i s fun a b => a + (2 ^ 64 - b)

/-! ### binary32 operations (R197, R198) -/

def execFadd (c g : Nat) (i : Insn) (s : State) : Res := intOp c g i s fAdd
def execFmul (c g : Nat) (i : Insn) (s : State) : Res := intOp c g i s fMul

/-- FMA, rounded once. -/
def execFma (c g : Nat) (i : Insn) (s : State) : Res :=
  laneOp s c g (triForm i) i fun src grp l =>
    setReg grp l (iDst i) (fFma (reg src l (iA i)) (reg src l (iB i)) (reg src l (iC i)))

def execFmin (c g : Nat) (i : Insn) (s : State) : Res := intOp c g i s fMin
def execFmax (c g : Nat) (i : Insn) (s : State) : Res := intOp c g i s fMax
def execFabs (c g : Nat) (i : Insn) (s : State) : Res := intOp1 c g i s fun a => a % 2 ^ 31
def execFneg (c g : Nat) (i : Insn) (s : State) : Res := intOp1 c g i s fun a => a ^^^ 2 ^ 31

/-! ### Predicate operations (R199) -/

/-- A test of a and b into a predicate. -/
def testOp (c g : Nat) (i : Insn) (s : State) (f : Nat → Nat → Bool) : Res :=
  laneOp s c g (testForm i) i fun src grp l => setPred grp l (iDst i % 8) (f (reg src l (iA i)) (operandB src l i))

def execTestEq (c g : Nat) (i : Insn) (s : State) : Res := testOp c g i s fun a b => a == b
def execTestNe (c g : Nat) (i : Insn) (s : State) : Res := testOp c g i s fun a b => a != b
def execTestLtS (c g : Nat) (i : Insn) (s : State) : Res := testOp c g i s fun a b => decide (sext 32 a < sext 32 b)
def execTestLeS (c g : Nat) (i : Insn) (s : State) : Res := testOp c g i s fun a b => decide (sext 32 a ≤ sext 32 b)
def execTestGtS (c g : Nat) (i : Insn) (s : State) : Res := testOp c g i s fun a b => decide (sext 32 b < sext 32 a)
def execTestGeS (c g : Nat) (i : Insn) (s : State) : Res := testOp c g i s fun a b => decide (sext 32 b ≤ sext 32 a)
def execTestLtU (c g : Nat) (i : Insn) (s : State) : Res := testOp c g i s fun a b => decide (a < b)
def execTestLeU (c g : Nat) (i : Insn) (s : State) : Res := testOp c g i s fun a b => decide (a ≤ b)
def execTestGtU (c g : Nat) (i : Insn) (s : State) : Res := testOp c g i s fun a b => decide (b < a)
def execTestGeU (c g : Nat) (i : Insn) (s : State) : Res := testOp c g i s fun a b => decide (b ≤ a)

def execFtestEq (c g : Nat) (i : Insn) (s : State) : Res := testOp c g i s fun a b => fCmp a b == some .eq
def execFtestNe (c g : Nat) (i : Insn) (s : State) : Res := testOp c g i s fun a b => fCmp a b != some .eq
def execFtestLt (c g : Nat) (i : Insn) (s : State) : Res := testOp c g i s fun a b => fCmp a b == some .lt
def execFtestLe (c g : Nat) (i : Insn) (s : State) : Res :=
  testOp c g i s fun a b => fCmp a b == some .lt || fCmp a b == some .eq
def execFtestGt (c g : Nat) (i : Insn) (s : State) : Res := testOp c g i s fun a b => fCmp a b == some .gt
def execFtestGe (c g : Nat) (i : Insn) (s : State) : Res :=
  testOp c g i s fun a b => fCmp a b == some .gt || fCmp a b == some .eq

/-- A logic operation on two predicate operands. -/
def predOp (c g : Nat) (i : Insn) (s : State) (f : Bool → Bool → Bool) : Res :=
  laneOp s c g (formR []) i fun src grp l =>
    setPred grp l (iDst i % 8) (f (predOperand src l (iA i)) (predOperand src l (iB i)))

def execPlogAnd (c g : Nat) (i : Insn) (s : State) : Res := predOp c g i s fun a b => a && b
def execPlogOr (c g : Nat) (i : Insn) (s : State) : Res := predOp c g i s fun a b => a || b
def execPlogXor (c g : Nat) (i : Insn) (s : State) : Res := predOp c g i s fun a b => a != b

/-- PACKP: the predicates into bits 7:0 of a register. -/
def execPackp (c g : Nat) (i : Insn) (s : State) : Res :=
  laneOp s c g (dstForm i) i fun src grp l => setReg grp l (iDst i) (predByte src l)

/-- LOADP: the predicates from bits 7:0 of a register. -/
def execLoadp (c g : Nat) (i : Insn) (s : State) : Res :=
  laneOp s c g (srcForm i) i fun src grp l => setPredByte grp l (reg src l (iA i) % 256)

/-- A reduction of a predicate operand over the active lanes of the running path. -/
def reduceOp (c g : Nat) (i : Insn) (s : State) (f : List Bool → Bool) : Res :=
  issue s c g (formR []) i fun x =>
    let v := f (x.act.map fun l => predOperand x.grp l (iA i))
    .next (advance s x (x.act.foldl (fun grp l => setPred grp l (iDst i % 8) v) x.grp))

def execGany (c g : Nat) (i : Insn) (s : State) : Res := reduceOp c g i s fun vs => vs.any id
def execGall (c g : Nat) (i : Insn) (s : State) : Res := reduceOp c g i s fun vs => vs.all id

/-- GMASK: the mask of active lanes whose predicate operand is 1. -/
def execGmask (c g : Nat) (i : Insn) (s : State) : Res :=
  issue s c g (dstForm i) i fun x =>
    let v := (laneMask (x.act.filter fun l => predOperand x.grp l (iA i))).toNat
    .next (advance s x (x.act.foldl (fun grp l => setReg grp l (iDst i) v) x.grp))

/-! ### Special registers (R157, R209) -/

/-- sr_ccycle as an instruction finds it: the cycles that the core has counted and the idle ones since it was last
read, whose number is free because the model does not time them (R157, log entry 8). -/
def ccycle (s : State) (k : Core) : Dword := k.cycle + BitVec.ofNat 64 (freeVal s)

/-- The special register with a number, for a lane (R157). -/
def specialReg (s : State) (x : Issue) (lane n : Nat) : Nat :=
  match n with
  | 0x00 => lane
  | 0x01 => x.grp.gid
  | 0x02 => x.blk.g
  | 0x03 => x.blk.bid % 2 ^ 32
  | 0x04 => x.g
  | 0x05 => x.grp.blk
  | 0x06 => if x.blk.u = 0 then 0 else x.blk.base * 65536
  | 0x07 => x.blk.u * 65536
  | 0x08 => x.c
  | 0x09 => ownNode s
  | _ => (ccycle s x.k).toNat

/-- SRD (R209). -/
def execSrd (c g : Nat) (i : Insn) (s : State) : Res :=
  let n := iA i
  let w := if n = 0x0A then 2 else 1
  issue s c g (srdForm i) i fun x =>
    let s' := if n = 0x0A then modCore (drawn s) c fun k => { k with cycle := ccycle s k } else s
    .next (advance s' x (x.act.foldl (fun grp l => setWide grp l (iDst i) (specialReg s x l n) w) x.grp))

end Sys2Proof.Machine
end

