-- ==== Sys2Proof/Machine/Dispatch.lean ====
section
/-! DEFINITION. Which meaning each command has: one arm per row of the operation table. -/

namespace Sys2Proof.Machine

/-- The effect of a command on everything but the queue of waiting commands. -/
def exec (i : Instr) (s : State) : Host.Outcome State Fault Refusal :=
  match i with
  | .powerApply pos => Sys2Proof.Machine.execPowerApply pos s
  | .powerLoss => Sys2Proof.Machine.execPowerLoss s
  | .enHigh => Sys2Proof.Machine.execEnHigh s
  | .enLow => Sys2Proof.Machine.execEnLow s
  | .powerGoodHandshake => Sys2Proof.Machine.execPowerGoodHandshake s
  | .undervoltage => Sys2Proof.Machine.execUndervoltage s
  | .railOutOfTolerance rail => Sys2Proof.Machine.execRailOutOfTolerance rail s
  | .referenceLoss => Sys2Proof.Machine.execReferenceLoss s
  | .pllLossOfLock bit => Sys2Proof.Machine.execPllLossOfLock bit s
  | .pressPllRelock => Sys2Proof.Machine.execPressPllRelock s
  | .relockEnd => Sys2Proof.Machine.execRelockEnd s
  | .powerWindow w => Sys2Proof.Machine.execPowerWindow w s
  | .flowLow => Sys2Proof.Machine.execFlowLow s
  | .rennetStage puf => Sys2Proof.Machine.execRennetStage puf s
  | .firmwareVerify => Sys2Proof.Machine.execFirmwareVerify s
  | .rindUp b => Sys2Proof.Machine.execRindUp b s
  | .earlyServiceEntry => Sys2Proof.Machine.execEarlyServiceEntry s
  | .fullServiceEntry t => Sys2Proof.Machine.execFullServiceEntry t s
  | .warmStartEntry => Sys2Proof.Machine.execWarmStartEntry s
  | .watchdogExpiry => Sys2Proof.Machine.execWatchdogExpiry s
  | .recoveryImageWrite image => Sys2Proof.Machine.execRecoveryImageWrite image s
  | .attestReq nonce => Sys2Proof.Machine.execAttestReq nonce s
  | .imagePut conn region image => Sys2Proof.Machine.execImagePut conn region image s
  | .start conn kind => Sys2Proof.Machine.execStart conn kind s
  | .selftest conn t => Sys2Proof.Machine.execSelftest conn t s
  | .selftestRun c pass => Sys2Proof.Machine.execSelftestRun c pass s
  | .meterRead conn seq => Sys2Proof.Machine.execMeterRead conn seq s
  | .logRead conn seq => Sys2Proof.Machine.execLogRead conn seq s
  | .scanHold conn => Sys2Proof.Machine.execScanHold conn s
  | .mgmtConnect => Sys2Proof.Machine.execMgmtConnect s
  | .debugTokenLoad conn pub sig => Sys2Proof.Machine.execDebugTokenLoad conn pub sig s
  | .bypass => Sys2Proof.Machine.execBypass s
  | .idcode => Sys2Proof.Machine.execIdcode s
  | .samplePreload cells => Sys2Proof.Machine.execSamplePreload cells s
  | .extest cells => Sys2Proof.Machine.execExtest cells s
  | .smbusReadSensor n => Sys2Proof.Machine.execSmbusReadSensor n s
  | .smbusReadStatus crossing => Sys2Proof.Machine.execSmbusReadStatus crossing s
  | .smbusAlertMask w pecOk => Sys2Proof.Machine.execSmbusAlertMask w pecOk s
  | .smbusIdentityRead => Sys2Proof.Machine.execSmbusIdentityRead s
  | .smbusAlertResponse => Sys2Proof.Machine.execSmbusAlertResponse s
  | .sensorLimitCross n value => Sys2Proof.Machine.execSensorLimitCross n value s
  | .ethFrameReceive p f => Sys2Proof.Machine.execEthFrameReceive p f s
  | .pfcPauseReceive p f => Sys2Proof.Machine.execPfcPauseReceive p f s
  | .cmReq qp r => Sys2Proof.Machine.execCmReq qp r s
  | .cmDreq qp => Sys2Proof.Machine.execCmDreq qp s
  | .hello ch pub params => Sys2Proof.Machine.execHello ch pub params s
  | .proof ch sig r => Sys2Proof.Machine.execProof ch sig r s
  | .close qp => Sys2Proof.Machine.execClose qp s
  | .handshakeTimeout ch => Sys2Proof.Machine.execHandshakeTimeout ch s
  | .rdmaWrite qp key addr data => Sys2Proof.Machine.execRdmaWrite qp key addr data s
  | .rdmaRead qp key addr len => Sys2Proof.Machine.execRdmaRead qp key addr len s
  | .compareAndSwap qp key addr cmp swap => Sys2Proof.Machine.execCompareAndSwap qp key addr cmp swap s
  | .fetchAndAdd qp key addr add => Sys2Proof.Machine.execFetchAndAdd qp key addr add s
  | .rdmaSend qp msg => Sys2Proof.Machine.execRdmaSend qp msg s
  | .leaseExpiry sess => Sys2Proof.Machine.execLeaseExpiry sess s
  | .qdbLease who q => Sys2Proof.Machine.execQdbLease who q s
  | .doorbell who q v => Sys2Proof.Machine.execDoorbell who q v s
  | .commandStart q => Sys2Proof.Machine.execCommandStart q s
  | .commandRetire q seq => Sys2Proof.Machine.execCommandRetire q seq s
  | .launch q seq => Sys2Proof.Machine.execLaunch q seq s
  | .ladle q seq => Sys2Proof.Machine.execLadle q seq s
  | .signal q seq => Sys2Proof.Machine.execSignal q seq s
  | .ctxCreate q => Sys2Proof.Machine.execCtxCreate q s
  | .ctxDestroy q => Sys2Proof.Machine.execCtxDestroy q s
  | .queueCreate q => Sys2Proof.Machine.execQueueCreate q s
  | .queueDestroy q => Sys2Proof.Machine.execQueueDestroy q s
  | .memAlloc q base => Sys2Proof.Machine.execMemAlloc q base s
  | .memFree q => Sys2Proof.Machine.execMemFree q s
  | .share q => Sys2Proof.Machine.execShare q s
  | .fenceCreate q => Sys2Proof.Machine.execFenceCreate q s
  | .fenceDestroy q => Sys2Proof.Machine.execFenceDestroy q s
  | .query q => Sys2Proof.Machine.execQuery q s
  | .abort q => Sys2Proof.Machine.execAbort q s
  | .jobJoin q => Sys2Proof.Machine.execJobJoin q s
  | .setReg q => Sys2Proof.Machine.execSetReg q s
  | .bucketOpen q => Sys2Proof.Machine.execBucketOpen q s
  | .bucketClose q => Sys2Proof.Machine.execBucketClose q s
  | .bucketCloseEffect b => Sys2Proof.Machine.execBucketCloseEffect b s
  | .turnRegions q => Sys2Proof.Machine.execTurnRegions q s
  | .decisionPost q => Sys2Proof.Machine.execDecisionPost q s
  | .decisionDeadlineExpiry f => Sys2Proof.Machine.execDecisionDeadlineExpiry f s
  | .quarantineEnd k idx => Sys2Proof.Machine.execQuarantineEnd k idx s
  | .slotEvict queue idx => Sys2Proof.Machine.execSlotEvict queue idx s
  | .slotTake queue idx => Sys2Proof.Machine.execSlotTake queue idx s
  | .preempt c => Sys2Proof.Machine.execPreempt c s
  | .contextSwitch c ctx => Sys2Proof.Machine.execContextSwitch c ctx s
  | .ctxCounterUpdate => Sys2Proof.Machine.execCtxCounterUpdate s
  | .blockAdmit c => Sys2Proof.Machine.execBlockAdmit c s
  | .groupResourceFree c g => Sys2Proof.Machine.execGroupResourceFree c g s
  | .blockResourceFree c b => Sys2Proof.Machine.execBlockResourceFree c b s
  | .launchBlocksEnd q seq => Sys2Proof.Machine.execLaunchBlocksEnd q seq s
  | .nop c g insn => Sys2Proof.Machine.execNop c g insn s
  | .bra c g insn => Sys2Proof.Machine.execBra c g insn s
  | .jmp c g insn => Sys2Proof.Machine.execJmp c g insn s
  | .call c g insn => Sys2Proof.Machine.execCall c g insn s
  | .ret c g insn => Sys2Proof.Machine.execRet c g insn s
  | .exit c g insn => Sys2Proof.Machine.execExit c g insn s
  | .bar c g insn => Sys2Proof.Machine.execBar c g insn s
  | .syncg c g insn => Sys2Proof.Machine.execSyncg c g insn s
  | .mov c g insn => Sys2Proof.Machine.execMov c g insn s
  | .add c g insn => Sys2Proof.Machine.execAdd c g insn s
  | .sub c g insn => Sys2Proof.Machine.execSub c g insn s
  | .mullo c g insn => Sys2Proof.Machine.execMullo c g insn s
  | .mulhiS c g insn => Sys2Proof.Machine.execMulhiS c g insn s
  | .mulhiU c g insn => Sys2Proof.Machine.execMulhiU c g insn s
  | .mad c g insn => Sys2Proof.Machine.execMad c g insn s
  | .and c g insn => Sys2Proof.Machine.execAnd c g insn s
  | .or c g insn => Sys2Proof.Machine.execOr c g insn s
  | .xor c g insn => Sys2Proof.Machine.execXor c g insn s
  | .shl c g insn => Sys2Proof.Machine.execShl c g insn s
  | .shr c g insn => Sys2Proof.Machine.execShr c g insn s
  | .sar c g insn => Sys2Proof.Machine.execSar c g insn s
  | .minS c g insn => Sys2Proof.Machine.execMinS c g insn s
  | .minU c g insn => Sys2Proof.Machine.execMinU c g insn s
  | .maxS c g insn => Sys2Proof.Machine.execMaxS c g insn s
  | .maxU c g insn => Sys2Proof.Machine.execMaxU c g insn s
  | .popc c g insn => Sys2Proof.Machine.execPopc c g insn s
  | .clz c g insn => Sys2Proof.Machine.execClz c g insn s
  | .sel c g insn => Sys2Proof.Machine.execSel c g insn s
  | .laneRd c g insn => Sys2Proof.Machine.execLaneRd c g insn s
  | .add64 c g insn => Sys2Proof.Machine.execAdd64 c g insn s
  | .sub64 c g insn => Sys2Proof.Machine.execSub64 c g insn s
  | .fadd c g insn => Sys2Proof.Machine.execFadd c g insn s
  | .fmul c g insn => Sys2Proof.Machine.execFmul c g insn s
  | .fma c g insn => Sys2Proof.Machine.execFma c g insn s
  | .fmin c g insn => Sys2Proof.Machine.execFmin c g insn s
  | .fmax c g insn => Sys2Proof.Machine.execFmax c g insn s
  | .fabs c g insn => Sys2Proof.Machine.execFabs c g insn s
  | .fneg c g insn => Sys2Proof.Machine.execFneg c g insn s
  | .testEq c g insn => Sys2Proof.Machine.execTestEq c g insn s
  | .testNe c g insn => Sys2Proof.Machine.execTestNe c g insn s
  | .testLtS c g insn => Sys2Proof.Machine.execTestLtS c g insn s
  | .testLeS c g insn => Sys2Proof.Machine.execTestLeS c g insn s
  | .testGtS c g insn => Sys2Proof.Machine.execTestGtS c g insn s
  | .testGeS c g insn => Sys2Proof.Machine.execTestGeS c g insn s
  | .testLtU c g insn => Sys2Proof.Machine.execTestLtU c g insn s
  | .testLeU c g insn => Sys2Proof.Machine.execTestLeU c g insn s
  | .testGtU c g insn => Sys2Proof.Machine.execTestGtU c g insn s
  | .testGeU c g insn => Sys2Proof.Machine.execTestGeU c g insn s
  | .ftestEq c g insn => Sys2Proof.Machine.execFtestEq c g insn s
  | .ftestNe c g insn => Sys2Proof.Machine.execFtestNe c g insn s
  | .ftestLt c g insn => Sys2Proof.Machine.execFtestLt c g insn s
  | .ftestLe c g insn => Sys2Proof.Machine.execFtestLe c g insn s
  | .ftestGt c g insn => Sys2Proof.Machine.execFtestGt c g insn s
  | .ftestGe c g insn => Sys2Proof.Machine.execFtestGe c g insn s
  | .plogAnd c g insn => Sys2Proof.Machine.execPlogAnd c g insn s
  | .plogOr c g insn => Sys2Proof.Machine.execPlogOr c g insn s
  | .plogXor c g insn => Sys2Proof.Machine.execPlogXor c g insn s
  | .packp c g insn => Sys2Proof.Machine.execPackp c g insn s
  | .loadp c g insn => Sys2Proof.Machine.execLoadp c g insn s
  | .gany c g insn => Sys2Proof.Machine.execGany c g insn s
  | .gall c g insn => Sys2Proof.Machine.execGall c g insn s
  | .gmask c g insn => Sys2Proof.Machine.execGmask c g insn s
  | .load c g sub insn => Sys2Proof.Machine.execLoad c g sub insn s
  | .store c g sub insn => Sys2Proof.Machine.execStore c g sub insn s
  | .atomAdd c g wide insn => Sys2Proof.Machine.execAtomAdd c g wide insn s
  | .atomFadd c g wide insn => Sys2Proof.Machine.execAtomFadd c g wide insn s
  | .atomMinS c g wide insn => Sys2Proof.Machine.execAtomMinS c g wide insn s
  | .atomMinU c g wide insn => Sys2Proof.Machine.execAtomMinU c g wide insn s
  | .atomMaxS c g wide insn => Sys2Proof.Machine.execAtomMaxS c g wide insn s
  | .atomMaxU c g wide insn => Sys2Proof.Machine.execAtomMaxU c g wide insn s
  | .atomAnd c g wide insn => Sys2Proof.Machine.execAtomAnd c g wide insn s
  | .atomOr c g wide insn => Sys2Proof.Machine.execAtomOr c g wide insn s
  | .atomXor c g wide insn => Sys2Proof.Machine.execAtomXor c g wide insn s
  | .atomExch c g wide insn => Sys2Proof.Machine.execAtomExch c g wide insn s
  | .atomCas c g wide insn => Sys2Proof.Machine.execAtomCas c g wide insn s
  | .fence c g insn => Sys2Proof.Machine.execFence c g insn s
  | .srd c g insn => Sys2Proof.Machine.execSrd c g insn s
  | .mxissue c g insn => Sys2Proof.Machine.execMxissue c g insn s
  | .mxwait c g insn => Sys2Proof.Machine.execMxwait c g insn s
  | .wxissue c g insn => Sys2Proof.Machine.execWxissue c g insn s
  | .wxwait c g insn => Sys2Proof.Machine.execWxwait c g insn s
  | .cvt c g insn => Sys2Proof.Machine.execCvt c g insn s
  | .trackedAccessRelease c n => Sys2Proof.Machine.execTrackedAccessRelease c n s
  | .loadReturn c n => Sys2Proof.Machine.execLoadReturn c n s
  | .writePerformed c n => Sys2Proof.Machine.execWritePerformed c n s
  | .atomicPerformed c n => Sys2Proof.Machine.execAtomicPerformed c n s
  | .releaseWaitEnd c n => Sys2Proof.Machine.execReleaseWaitEnd c n s
  | .remoteReleasePerform k => Sys2Proof.Machine.execRemoteReleasePerform k s
  | .pressLoadStart c => Sys2Proof.Machine.execPressLoadStart c s
  | .pressLoadEnd c => Sys2Proof.Machine.execPressLoadEnd c s
  | .pressSwap c => Sys2Proof.Machine.execPressSwap c s
  | .pressRowEntry c => Sys2Proof.Machine.execPressRowEntry c s
  | .pressOutputWrite c e => Sys2Proof.Machine.execPressOutputWrite c e s
  | .pressRerun c => Sys2Proof.Machine.execPressRerun c s
  | .descriptorComplete c => Sys2Proof.Machine.execDescriptorComplete c s
  | .batchOpen c => Sys2Proof.Machine.execBatchOpen c s
  | .batchWaitExpiry c => Sys2Proof.Machine.execBatchWaitExpiry c s
  | .pressClockStop c => Sys2Proof.Machine.execPressClockStop c s
  | .domainWake d => Sys2Proof.Machine.execDomainWake d s
  | .pressCoCtlWrite c v => Sys2Proof.Machine.execPressCoCtlWrite c v s
  | .pressCcWrite c n v inc => Sys2Proof.Machine.execPressCcWrite c n v inc s
  | .pressSatFree c n => Sys2Proof.Machine.execPressSatFree c n s
  | .chainGroupEntry c => Sys2Proof.Machine.execChainGroupEntry c s
  | .chainGroupWrite c differ => Sys2Proof.Machine.execChainGroupWrite c differ s
  | .wheyGroupRerun c differ => Sys2Proof.Machine.execWheyGroupRerun c differ s
  | .chainComplete c => Sys2Proof.Machine.execChainComplete c s
  | .wheyCcWrite c n v inc => Sys2Proof.Machine.execWheyCcWrite c n v inc s
  | .cultureWrite c lane v => Sys2Proof.Machine.execCultureWrite c lane v s
  | .ladleSubmit c k v => Sys2Proof.Machine.execLadleSubmit c k v s
  | .ladleCommandStart l => Sys2Proof.Machine.execLadleCommandStart l s
  | .ladleBlock l k => Sys2Proof.Machine.execLadleBlock l k s
  | .ladleComplete l => Sys2Proof.Machine.execLadleComplete l s
  | .nvmeCommandComplete l r => Sys2Proof.Machine.execNvmeCommandComplete l r s
  | .pcieLinkDown l => Sys2Proof.Machine.execPcieLinkDown l s
  | .nvmeEnable l d => Sys2Proof.Machine.execNvmeEnable l d s
  | .cavePark ch => Sys2Proof.Machine.execCavePark ch s
  | .caveWake ch => Sys2Proof.Machine.execCaveWake ch s
  | .patrolScrub addr r => Sys2Proof.Machine.execPatrolScrub addr r s
  | .qwRegenerate => Sys2Proof.Machine.execQwRegenerate s
  | .regenCheckDone r => Sys2Proof.Machine.execRegenCheckDone r s
  | .phaseSet c v => Sys2Proof.Machine.execPhaseSet c v s
  | .shardPtr c v => Sys2Proof.Machine.execShardPtr c v s
  | .segReplay c v => Sys2Proof.Machine.execSegReplay c v s
  | .turningPoint => Sys2Proof.Machine.execTurningPoint s
  | .turningGranule n => Sys2Proof.Machine.execTurningGranule n s
  | .mirrorComplete => Sys2Proof.Machine.execMirrorComplete s
  | .coreRemap c => Sys2Proof.Machine.execCoreRemap c s
  | .heartbeatTimer => Sys2Proof.Machine.execHeartbeatTimer s
  | .memberLossExpiry node => Sys2Proof.Machine.execMemberLossExpiry node s
  | .standbyTakeover => Sys2Proof.Machine.execStandbyTakeover s
  | .mirrorAckTimeout => Sys2Proof.Machine.execMirrorAckTimeout s
  | .mailboxHeartbeat p vc => Sys2Proof.Machine.execMailboxHeartbeat p vc s
  | .mailboxReport p vc => Sys2Proof.Machine.execMailboxReport p vc s
  | .mailboxMirror p vc => Sys2Proof.Machine.execMailboxMirror p vc s
  | .mailboxAck p vc => Sys2Proof.Machine.execMailboxAck p vc s
  | .mailboxDecision p vc => Sys2Proof.Machine.execMailboxDecision p vc s
  | .decisionGo p vc => Sys2Proof.Machine.execDecisionGo p vc s
  | .mailboxReady p vc => Sys2Proof.Machine.execMailboxReady p vc s
  | .spareMirrorCopy => Sys2Proof.Machine.execSpareMirrorCopy s
  | .hoopScaleReady c v => Sys2Proof.Machine.execHoopScaleReady c v s
  | .hoopBucketReady c v => Sys2Proof.Machine.execHoopBucketReady c v s
  | .bucketStepOpen b => Sys2Proof.Machine.execBucketStepOpen b s
  | .bucketMatchLoad b => Sys2Proof.Machine.execBucketMatchLoad b s
  | .reduceScaleRs p vc => Sys2Proof.Machine.execReduceScaleRs p vc s
  | .reduceScaleAg p vc => Sys2Proof.Machine.execReduceScaleAg p vc s
  | .reduceRedRs p vc e => Sys2Proof.Machine.execReduceRedRs p vc e s
  | .reduceRedAg p vc => Sys2Proof.Machine.execReduceRedAg p vc s
  | .reduceAck p vc => Sys2Proof.Machine.execReduceAck p vc s
  | .reduceNak p vc => Sys2Proof.Machine.execReduceNak p vc s
  | .reduceAckTimer k => Sys2Proof.Machine.execReduceAckTimer k s
  | .reduceResendTimeout k => Sys2Proof.Machine.execReduceResendTimeout k s
  | .rescaleAssistReturn k => Sys2Proof.Machine.execRescaleAssistReturn k s
  | .bucketStepComplete b => Sys2Proof.Machine.execBucketStepComplete b s
  | .holdWindowExpiry b => Sys2Proof.Machine.execHoldWindowExpiry b s
  | .ripenCopy b => Sys2Proof.Machine.execRipenCopy b s
  | .hoopStallExpiry b => Sys2Proof.Machine.execHoopStallExpiry b s
  | .flitReceive p f => Sys2Proof.Machine.execFlitReceive p f s
  | .failoverFlit p f => Sys2Proof.Machine.execFailoverFlit p f s
  | .trainFlit p f => Sys2Proof.Machine.execTrainFlit p f s
  | .linkRetryTimeout p => Sys2Proof.Machine.execLinkRetryTimeout p s
  | .packetInject => Sys2Proof.Machine.execPacketInject s
  | .transitForward p vc dbl => Sys2Proof.Machine.execTransitForward p vc dbl s
  | .transitHoldExpiry p vc => Sys2Proof.Machine.execTransitHoldExpiry p vc s
  | .write p vc => Sys2Proof.Machine.execWrite p vc s
  | .readReq p vc => Sys2Proof.Machine.execReadReq p vc s
  | .readRsp p vc => Sys2Proof.Machine.execReadRsp p vc s
  | .atomic p vc => Sys2Proof.Machine.execAtomic p vc s
  | .atomicRsp p vc => Sys2Proof.Machine.execAtomicRsp p vc s
  | .writeCpl p vc => Sys2Proof.Machine.execWriteCpl p vc s
  | .errorRsp p vc => Sys2Proof.Machine.execErrorRsp p vc s
  | .remoteTimeout tag => Sys2Proof.Machine.execRemoteTimeout tag s
  | .tagQuarantineEnd tag => Sys2Proof.Machine.execTagQuarantineEnd tag s
  | .routeDrain => Sys2Proof.Machine.execRouteDrain s
  | .routeTableLoad => Sys2Proof.Machine.execRouteTableLoad s
  | .routeCacheReady src => Sys2Proof.Machine.execRouteCacheReady src s
  | .linkTrainStateDone p t => Sys2Proof.Machine.execLinkTrainStateDone p t s
  | .trainLimitExpiry p => Sys2Proof.Machine.execTrainLimitExpiry p s
  | .retrain p => Sys2Proof.Machine.execRetrain p s
  | .activityFrame => Sys2Proof.Machine.execActivityFrame s
  | .meterFrameAccept frame => Sys2Proof.Machine.execMeterFrameAccept frame s
  | .intervalClose tick energy => Sys2Proof.Machine.execIntervalClose tick energy s
  | .meterPowerLoss tick energy => Sys2Proof.Machine.execMeterPowerLoss tick energy s
  | .serviceContactClose tick energy => Sys2Proof.Machine.execServiceContactClose tick energy s
  | .meterAbsent contactOpen => Sys2Proof.Machine.execMeterAbsent contactOpen s
  | .meterSealedFault breach => Sys2Proof.Machine.execMeterSealedFault breach s
  | .setCal m => Sys2Proof.Machine.execSetCal m s
  | .setInterval m => Sys2Proof.Machine.execSetInterval m s
  | .calCheck m => Sys2Proof.Machine.execCalCheck m s
  | .fwUpdate m => Sys2Proof.Machine.execFwUpdate m s
  | .meterExit m => Sys2Proof.Machine.execMeterExit m s
  | .faultTriage f => Sys2Proof.Machine.execFaultTriage f s
  | .thresholdWindowEnd => Sys2Proof.Machine.execThresholdWindowEnd s
  | .faultLogAppend => Sys2Proof.Machine.execFaultLogAppend s
  | .readWheyNanCnt c => Sys2Proof.Machine.execReadWheyNanCnt c s
  | .readPressSatOther c => Sys2Proof.Machine.execReadPressSatOther c s
  | .readRuongDrop => Sys2Proof.Machine.execReadRuongDrop s
  | .readRuongPerr p => Sys2Proof.Machine.execReadRuongPerr p s
  | .readRuongPcorr p => Sys2Proof.Machine.execReadRuongPcorr p s
  | .readHoopDrop => Sys2Proof.Machine.execReadHoopDrop s
  | .readHoopChk => Sys2Proof.Machine.execReadHoopChk s
  | .readHoopRscl => Sys2Proof.Machine.execReadHoopRscl s
  | .readObjDrop => Sys2Proof.Machine.execReadObjDrop s
  | .readIntegCorr => Sys2Proof.Machine.execReadIntegCorr s
  | .readIntegUncorr => Sys2Proof.Machine.execReadIntegUncorr s
  | .readEthCnt p => Sys2Proof.Machine.execReadEthCnt p s
  | .readPcieLerr l => Sys2Proof.Machine.execReadPcieLerr l s
  | .registerWrite who addr width v => Sys2Proof.Machine.execRegisterWrite who addr width v s
  | .referenceReturn => Sys2Proof.Machine.execReferenceReturn s
  | .meterPowerReturn tick energy => Sys2Proof.Machine.execMeterPowerReturn tick energy s
  | .serviceContactOpen tick energy => Sys2Proof.Machine.execServiceContactOpen tick energy s
  | .ethLinkUp p => Sys2Proof.Machine.execEthLinkUp p s
  | .ethLinkDown p => Sys2Proof.Machine.execEthLinkDown p s

end Sys2Proof.Machine
end

