-- ==== Sys2Proof/Machine/Tick.lean ====
section
/-! DEFINITION. What passes with time alone: one tick of the reference (R531), with the phase counts of the cores
and the hub (R424), the core cycles of resident groups (R183), the segment replays and the RDMA requests that go on (R328, R459), the IDLE
flits of a warm start (R370), flash writes (R508) and restores that wait (R449), switches of quantised banks that are complete (R267) and the contentions that begin or end (R38). -/

namespace Sys2Proof.Machine

/-- A count that saturates at 0xFFFF_FFFF (R424). -/
def satInc (w : Word) : Word := if w = 0xFFFFFFFF then w else w + 1

/-- The phase code that a tick of a core counts to: RECOMPUTE in a segment replay, TURNING while a FORWARD mark is
held for a turning, else the current phase (R424). -/
def tickPhase (s : State) (k : Core) : Nat :=
  if segBusy k then 3
  else match k.phase.held with
    | some v => if markPhase v == 1 && turnHolds s (markStep v) then 6 else (match k.phase.cur with | some (_, q) => q | none => 0)
    | none => match k.phase.cur with | some (_, q) => q | none => 0

/-- A tick counted by a core that has a current step; IDLE is not recorded (R424, R425). -/
def tickCore (s : State) (k : Core) : Core :=
  let q := tickPhase s k
  if k.phase.cur.isNone || q = 0 then k
  else { k with phase := { k.phase with ticks := mput k.phase.ticks q (satInc (mget k.phase.ticks 0 q)) } }

/-- A tick counted by the hub: REDUCE of every step with a bucket step in progress, TURNING of a copy (R424). -/
def tickHub (s : State) : State :=
  modTurn s fun t =>
    { t with
      hubReduce := ((s.hoop.steps.map (·.step)).eraseDups).foldl (fun m x => mput m x (satInc (mget m 0 x))) t.hubReduce
      hubTurning := if t.run.isSome then satInc t.hubTurning else t.hubTurning }

/-- The segment replays that have items left go on (R459). -/
def tickSegs (s : State) : State :=
  (s.cores.filter fun kv => kv.2.phase.segLeft.isSome).foldl (fun s kv => segFeed s kv.1) s

/-- Core cycles that pass without an issue while groups are resident on a core: a free number, because the core clock
is not counted in reference ticks (R11, R183, log entry 8). -/
def tickResident (s : State) : State :=
  (s.cores.filter fun kv => !kv.2.groups.isEmpty && !pllDown s (4 + kv.1 / 64)).foldl
    (fun s kv => modCore (drawn s) kv.1 fun k => { k with resCnt := k.resCnt + BitVec.ofNat 64 (freeVal s) }) s

/-- A contention of queue arbitration or eviction noted with its first tick, or gone (R38). -/
def tickContend (s : State) : State :=
  let note (fn : Nat) (b : Bool) (m : Map Nat) : Map Nat :=
    if !b then mdel m fn else if (mget? m fn).isSome then m else mput m fn (now s)
  let b0 := contention s || slotContend s true || slotContend s false
  let b4 := slotNeeded s true || slotNeeded s false
  modObj s fun o => { o with contend := note 4 b4 (note 0 b0 o.contend) }

/-- The ports that a warm start holds send IDLE flits until the rind is up (R370); how many pass in a tick is timing. -/
def tickHold (s : State) : State :=
  if !s.start.warm || s.start.up then s
  else (List.range 12).foldl (fun s p => if (portOf s p).warmHold then sendIdle s p else s) s

/-- A service port that is down begins to train while the rind is up; ETH_LINK_UP ends the training (R575, R594; DESIGN
CHOICE, log entry 136). -/
def tickEth (s : State) : State :=
  if !s.start.up then s
  else (List.range 2).foldl (fun s p => if (mget s.eths {} p).link = 0 then modEth s p fun e => { e with link := 1 } else s) s

/-- A pause of a service port that has lasted its time ends (R576). -/
def tickPause (s : State) : State :=
  (List.range 2).foldl
    (fun s p => match (mget s.eths {} p).pause with | some (t, n) => if n ≤ subMod 64 (now s) t then resume s p else s | none => s) s

/-- The sequencer of the rails goes on: one rail more in tolerance, and PGOOD released after the last one; or one rail less
(R603, R604). How long a rail takes is timing (log entry 135). -/
def tickRails (s : State) : State :=
  if !s.pow.rise then modPow s fun p => { p with rails := p.rails - 1 }
  else if s.pow.rails < 6 then modPow s fun p => { p with rails := p.rails + 1 }
  else if s.pow.pgood then s
  else drivePgood s true

/-- One tick of the 100 MHz reference: none without input power or without the reference (R531, R543). -/
def tick (s : State) : State :=
  let s := tickRails s
  if !s.pow.vin || s.pow.refGone then s
  else
    let s := { s with refCnt := s.refCnt + 1 }
    let s := if pllDown s 1 || pllDown s 3 then s else completeWrite s
    if s.start.mode != .normal then s
    else if pllDown s 1 then { s with cores := (tickResident s).cores.map fun kv => (kv.1, tickCore s kv.2), freeIx := (tickResident s).freeIx }
    else (if pllDown s 3 then id else goOn) <| tickPause <| tickEth <| tickContend (settleSwitches (serveQps (tickHold (tickSegs (tickResident { tickHub s with cores := s.cores.map fun kv => (kv.1, tickCore s kv.2) })))))

end Sys2Proof.Machine
end

