-- ==== Sys2Proof/Machine/Step.lean ====
section
/-! DEFINITION. The step of the module: the command at the front of the queue runs; with no command
waiting, one tick of the reference passes (log entry 4). -/

namespace Sys2Proof.Machine

/-- One step: the front command on the state with the rest of the queue; on an empty queue a tick of
the 100 MHz reference (R531, R546). -/
def step (s : State) : Host.Outcome State Fault Refusal :=
  match s.pending with
  | [] => .next (tick s)
  | c :: rest => exec c { s with pending := rest }

/-- The state with the command that a word spells at the front of its queue; no row of the operation
table gives bits, so no word spells one. -/
def State.withFetchWord (s : State) (nbits w : Nat) : State :=
  match decodeTableWord nbits w with
  | some c => { s with pending := c :: s.pending }
  | none => s

end Sys2Proof.Machine
end

