-- ==== Sys2Proof/Safety.lean ====
section
/-! DEFINITION. What counts as a safe state: the canonical form of every byte and word table that
operations compare, which statements use as their invariant. -/

namespace Sys2Proof.Machine

/-- The memory is canonical: keys rise and no listed byte is the value that an unlisted one reads as. -/
abbrev State.memOk (s : State) : Prop := mapWf (0 : Byte) s.mem = true

end Sys2Proof.Machine
end

