-- ==== Sys2Proof/Certificates/Slice0/Obligations.lean ====
section
/-! DEFINITION. The statements for the provers, one `def Obligations.<Name> : Prop` each. The definitions in
`Sys2Proof.Says` name what the statements observe: registers and predicates of a thread, where a group stands, and
what a command leaves alone. -/

namespace Sys2Proof.Says

open Sys2Proof.Machine

/-- A command runs from a state to a next state. -/
def Runs (i : Instr) (s t : State) : Prop := exec i s = .next t

/-- The hub has its clock, and so has the rind, which works through the hub (R529, R544). -/
abbrev HubRuns (s : State) : Prop := pllDown s 1 = false
abbrev RindRuns (s : State) : Prop := pllDown s 1 = false ∧ pllDown s 3 = false

/-! ### Threads -/

/-- Register `r` of lane `l` of the group in slot `g` of core `c`. -/
def regAt (s : State) (c g l r : Nat) : Nat :=
  match mget? (coreOf s c).groups g with
  | some grp => reg grp l r
  | none => 0

/-- Predicate `n` of a lane of a group. -/
def predAt (s : State) (c g l n : Nat) : Bool :=
  match mget? (coreOf s c).groups g with
  | some grp => pred grp l n
  | none => false

/-- The paths of a group, the running one first. -/
def pathsAt (s : State) (c g : Nat) : List Path :=
  match mget? (coreOf s c).groups g with
  | some grp => grp.paths
  | none => []

/-- The group of an issue can issue: the core runs it and picks it, no group between the one that issued last and it being
ready, the word at its address can be fetched, the instruction has no encoding error, names no register that a load or an
atomic is still to write and reads no poisoned one (R156, R185, R192, R283, R296). -/
structure Ready (s : State) (c g : Nat) (f : Form) (i : Insn) (x : Issue) : Prop where
  core : c < 256
  slot : g < 48
  here : issueOf s c g i = some x
  next : picked s c g = true
  awake : asleep s x.pc 8 = false
  fetched : fetchCheck s x.pc = none
  formed : formOk x.blk.n f i = true
  free : operandsPending x.k g x.grp f x.act i = false
  sound : operandsBad x.grp f x.act i = false

/-- Outside the cores nothing has changed, no other core has, no other group of the core has, and in the core only
the group, the counts of issue and the cycle counter have (R156, R157, R183). -/
structure OnlyGroup (s t : State) (c g : Nat) : Prop where
  rest : { t with cores := s.cores } = s
  others : ∀ d, d ≠ c → coreOf t d = coreOf s d
  groups : ∀ h, h ≠ g → mget? (coreOf t c).groups h = mget? (coreOf s c).groups h
  core : { coreOf t c with
      groups := (coreOf s c).groups
      lastSlot := (coreOf s c).lastSlot
      issueCnt := (coreOf s c).issueCnt
      resCnt := (coreOf s c).resCnt
      cycle := (coreOf s c).cycle } = coreOf s c

/-- The running path goes on at the next word, and the other paths, with what has merged, stand (R160, R185). -/
def WentOn (t : State) (c g : Nat) (x : Issue) : Prop :=
  ∃ p ps, x.grp.paths = p :: ps ∧ pathsAt t c g = { p with pc := x.pc + 8 } :: ps

/-- Each active lane's register `dst` holds the value given for it, unless `dst` is zero; every other register of
every lane, and every predicate, stands (R188, R190). -/
def Writes (s t : State) (c g : Nat) (act : List Nat) (dst : Nat) (v : Nat → Nat) : Prop :=
  (∀ l ∈ act, dst ≠ 255 → regAt t c g l dst = v l) ∧
  (∀ l r, r < 256 → ¬ (l ∈ act ∧ r = dst) → regAt t c g l r = regAt s c g l r) ∧
  ∀ l n, predAt t c g l n = predAt s c g l n

/-- Each active lane's pair holds the value given for it, low half first; every other register and every predicate
stands. -/
def WritesPair (s t : State) (c g : Nat) (act : List Nat) (dst : Nat) (v : Nat → Nat) : Prop :=
  (∀ l ∈ act, dst ≠ 255 → regAt t c g l dst = v l % 2 ^ 32 ∧ regAt t c g l (dst + 1) = v l / 2 ^ 32) ∧
  (∀ l r, r < 256 → ¬ (l ∈ act ∧ (r = dst ∨ r = dst + 1)) → regAt t c g l r = regAt s c g l r) ∧
  ∀ l n, predAt t c g l n = predAt s c g l n

/-- Each active lane's predicate `n` holds the value given for it; every other predicate and every register
stands. -/
def WritesPred (s t : State) (c g : Nat) (act : List Nat) (n : Nat) (v : Nat → Bool) : Prop :=
  (∀ l ∈ act, predAt t c g l n = v l) ∧
  (∀ l m, m < 8 → ¬ (l ∈ act ∧ m = n) → predAt t c g l m = predAt s c g l m) ∧
  ∀ l r, regAt t c g l r = regAt s c g l r

/-- Forms R and I with DST, SRC_A and in form R SRC_B (R187, R196). -/
def formRI (i : Insn) : Form := { im := true, regs := [(iDst i, 1), (iA i, 1)] ++ (if i.fmt then [] else [(iB i, 1)]) }

/-- Forms R and I of a 64-bit operation: pairs (R191, R196). -/
def formRI64 (i : Insn) : Form := { im := true, regs := [(iDst i, 2), (iA i, 2)] ++ (if i.fmt then [] else [(iB i, 2)]) }

/-- Forms R and I of MOV, which does not use SRC_A. -/
def formMov (i : Insn) : Form := { im := true, regs := (iDst i, 1) :: (if i.fmt then [] else [(iB i, 1)]) }

/-- Forms R and I of a test: no destination register (R199). -/
def formTest (i : Insn) : Form := { im := true, noDst := true, regs := (iA i, 1) :: (if i.fmt then [] else [(iB i, 1)]) }

/-- Operand a and operand b of a lane as words. -/
def wordA (x : Issue) (i : Insn) (l : Nat) : Word := BitVec.ofNat 32 (reg x.grp l (iA i))
def wordB (x : Issue) (i : Insn) (l : Nat) : Word := BitVec.ofNat 32 (operandB x.grp l i)
def wordC (x : Issue) (i : Insn) (l : Nat) : Word := BitVec.ofNat 32 (reg x.grp l (iC i))

/-- The integer operations of two 32-bit operands in forms R and I (R196). -/
def intTwo : List ((Nat → Nat → Insn → Instr) × (Word → Word → Word)) :=
  [(.add, fun a b => a + b), (.sub, fun a b => a - b), (.mullo, fun a b => a * b),
   (.mulhiS, fun a b => BitVec.ofInt 32 (a.toInt * b.toInt / 2 ^ 32)),
   (.mulhiU, fun a b => BitVec.ofNat 32 (a.toNat * b.toNat / 2 ^ 32)),
   (.and, fun a b => a &&& b), (.or, fun a b => a ||| b), (.xor, fun a b => a ^^^ b),
   (.shl, fun a b => a <<< (b.toNat % 32)), (.shr, fun a b => a >>> (b.toNat % 32)),
   (.sar, fun a b => a.sshiftRight (b.toNat % 32)),
   (.minS, fun a b => if a.slt b then a else b), (.minU, fun a b => if a.ult b then a else b),
   (.maxS, fun a b => if a.slt b then b else a), (.maxU, fun a b => if a.ult b then b else a)]

/-- The number of set bits of a word. -/
def ones (a : Word) : Nat := ((List.range 32).filter fun n => a.getLsbD n).length

/-- `n` is the number of leading zeros of a word. -/
def LeadingZeros (a : Word) (n : Nat) : Prop :=
  n ≤ 32 ∧ (∀ k, 32 - n ≤ k → a.getLsbD k = false) ∧ (n < 32 → a.getLsbD (31 - n) = true)

/-- The comparisons of R199 on words. -/
def intTests : List ((Nat → Nat → Insn → Instr) × (Word → Word → Bool)) :=
  [(.testEq, fun a b => a == b), (.testNe, fun a b => a != b),
   (.testLtS, fun a b => a.slt b), (.testLeS, fun a b => a.sle b),
   (.testGtS, fun a b => b.slt a), (.testGeS, fun a b => b.sle a),
   (.testLtU, fun a b => a.ult b), (.testLeU, fun a b => a.ule b),
   (.testGtU, fun a b => b.ult a), (.testGeU, fun a b => b.ule a)]

end Sys2Proof.Says

open Sys2Proof Sys2Proof.Machine Sys2Proof.Says

/-! ## Thread instructions -/

/-- R196, the operations of two 32-bit operands: each active thread's DST takes a op b, nothing else of any thread
changes, and the group goes on at the next word. -/
def Sys2Proof.Says.IntegerTwoOperand : Prop :=
  ∀ op ∈ intTwo, ∀ (s : State) (c g : Nat) (i : Insn) (x : Issue), Ready s c g (formRI i) i x →
    ∃ t, Runs (op.1 c g i) s t ∧
      Writes s t c g x.act (iDst i) (fun l => (op.2 (wordA x i l) (wordB x i l)).toNat) ∧
      OnlyGroup s t c g ∧ WentOn t c g x

/-- R196, the operations of other shapes: MOV, MAD, POPC, CLZ, SEL, LANE.RD and the 64-bit ADD64 and SUB64. -/
def Sys2Proof.Says.IntegerOther : Prop :=
  ∀ (s : State) (c g : Nat) (i : Insn) (x : Issue),
    (Ready s c g (formMov i) i x → ∃ t, Runs (.mov c g i) s t ∧
      Writes s t c g x.act (iDst i) (fun l => operandB x.grp l i) ∧ OnlyGroup s t c g ∧ WentOn t c g x) ∧
    (Ready s c g (formR [iDst i, iA i, iB i, iC i]) i x → ∃ t, Runs (.mad c g i) s t ∧
      Writes s t c g x.act (iDst i)
        (fun l => (wordA x i l * BitVec.ofNat 32 (reg x.grp l (iB i)) + wordC x i l).toNat) ∧
      OnlyGroup s t c g ∧ WentOn t c g x) ∧
    (Ready s c g (formR [iDst i, iA i]) i x → ∃ t, Runs (.popc c g i) s t ∧
      Writes s t c g x.act (iDst i) (fun l => ones (wordA x i l)) ∧ OnlyGroup s t c g ∧ WentOn t c g x) ∧
    (Ready s c g (formR [iDst i, iA i]) i x → ∃ t v, Runs (.clz c g i) s t ∧
      (∀ l, LeadingZeros (wordA x i l) (v l)) ∧ Writes s t c g x.act (iDst i) v ∧
      OnlyGroup s t c g ∧ WentOn t c g x) ∧
    (Ready s c g (formR [iDst i, iA i, iB i]) i x → ∃ t, Runs (.sel c g i) s t ∧
      Writes s t c g x.act (iDst i)
        (fun l => if pred x.grp l (iC i % 8) then reg x.grp l (iA i) else reg x.grp l (iB i)) ∧
      OnlyGroup s t c g ∧ WentOn t c g x) ∧
    (Ready s c g { formR [iDst i, iA i, iB i] with far := true } i x → ∃ t, Runs (.laneRd c g i) s t ∧
      Writes s t c g x.act (iDst i) (fun l => reg x.grp (reg x.grp l (iB i) % 32) (iA i)) ∧
      OnlyGroup s t c g ∧ WentOn t c g x) ∧
    (Ready s c g (formRI64 i) i x → ∃ t, Runs (.add64 c g i) s t ∧
      WritesPair s t c g x.act (iDst i)
        (fun l => (BitVec.ofNat 64 (regPair x.grp l (iA i)) + BitVec.ofNat 64 (operandB64 x.grp l i)).toNat) ∧
      OnlyGroup s t c g ∧ WentOn t c g x) ∧
    (Ready s c g (formRI64 i) i x → ∃ t, Runs (.sub64 c g i) s t ∧
      WritesPair s t c g x.act (iDst i)
        (fun l => (BitVec.ofNat 64 (regPair x.grp l (iA i)) - BitVec.ofNat 64 (operandB64 x.grp l i)).toNat) ∧
      OnlyGroup s t c g ∧ WentOn t c g x)

/-- The INT class: the operations of two operands, and the others. It concludes a next state of: mov, add, sub, mullo,
mulhiS, mulhiU, mad, and, or, xor, shl, shr, sar, minS, minU, maxS, maxU, popc, clz, sel, laneRd, add64, sub64. -/
def Obligations.IntegerOperations : Prop := Says.IntegerTwoOperand ∧ Says.IntegerOther

/-- R197, R198: the binary32 operations write the rounded result (`fAdd`, `fMul`, `fFma`, `fMin` and `fMax` of the number
formats) of each active thread's operands; FABS clears and FNEG inverts the sign bit. It concludes a next state of:
fadd, fmul, fma, fmin, fmax, fabs, fneg. -/
def Obligations.FloatOperations : Prop :=
  ∀ (s : State) (c g : Nat) (i : Insn) (x : Issue),
    (Ready s c g (formRI i) i x →
      ∀ op ∈ [(Instr.fadd, fAdd), (.fmul, fMul), (.fmin, fMin), (.fmax, fMax)],
        ∃ t, Runs (op.1 c g i) s t ∧
          Writes s t c g x.act (iDst i) (fun l => op.2 (reg x.grp l (iA i)) (operandB x.grp l i) % 2 ^ 32) ∧
          OnlyGroup s t c g ∧ WentOn t c g x) ∧
    (Ready s c g (formR [iDst i, iA i, iB i, iC i]) i x → ∃ t, Runs (.fma c g i) s t ∧
      Writes s t c g x.act (iDst i)
        (fun l => fFma (reg x.grp l (iA i)) (reg x.grp l (iB i)) (reg x.grp l (iC i)) % 2 ^ 32) ∧
      OnlyGroup s t c g ∧ WentOn t c g x) ∧
    (Ready s c g (formR [iDst i, iA i]) i x →
      (∃ t, Runs (.fabs c g i) s t ∧
        Writes s t c g x.act (iDst i) (fun l => (wordA x i l &&& 0x7FFFFFFF#32).toNat) ∧
        OnlyGroup s t c g ∧ WentOn t c g x) ∧
      ∃ t, Runs (.fneg c g i) s t ∧
        Writes s t c g x.act (iDst i) (fun l => (wordA x i l ^^^ 0x80000000#32).toNat) ∧
        OnlyGroup s t c g ∧ WentOn t c g x)

/-- R199: the tests of words and of binary32 values write p[DST[2:0]] of each active thread and nothing else. A
binary32 test of a NaN is false but for FTEST.NE. -/
def Sys2Proof.Says.PredicateTests : Prop :=
  ∀ (s : State) (c g : Nat) (i : Insn) (x : Issue), Ready s c g (formTest i) i x →
    (∀ op ∈ intTests, ∃ t, Runs (op.1 c g i) s t ∧
      WritesPred s t c g x.act (iDst i % 8) (fun l => op.2 (wordA x i l) (wordB x i l)) ∧
      OnlyGroup s t c g ∧ WentOn t c g x) ∧
    (∀ op ∈ [(Instr.ftestEq, fun o => o == some Ordering.eq), (.ftestNe, fun o => o != some .eq),
        (.ftestLt, fun o => o == some .lt), (.ftestLe, fun o => o == some .lt || o == some .eq),
        (.ftestGt, fun o => o == some .gt), (.ftestGe, fun o => o == some .gt || o == some .eq)],
      ∃ t, Runs (op.1 c g i) s t ∧
        WritesPred s t c g x.act (iDst i % 8) (fun l => op.2 (fCmp (reg x.grp l (iA i)) (operandB x.grp l i))) ∧
        OnlyGroup s t c g ∧ WentOn t c g x)

/-- R199: logic on predicate operands, their reductions over the active threads, and moves between the eight
predicates and a register. -/
def Sys2Proof.Says.PredicateLogic : Prop :=
  ∀ (s : State) (c g : Nat) (i : Insn) (x : Issue),
    (Ready s c g (formR []) i x →
      (∀ op ∈ [(Instr.plogAnd, and), (.plogOr, or), (.plogXor, xor)],
        ∃ t, Runs (op.1 c g i) s t ∧
          WritesPred s t c g x.act (iDst i % 8)
            (fun l => op.2 (predOperand x.grp l (iA i)) (predOperand x.grp l (iB i))) ∧
          OnlyGroup s t c g ∧ WentOn t c g x) ∧
      (∃ t, Runs (.gany c g i) s t ∧
        WritesPred s t c g x.act (iDst i % 8) (fun _ => x.act.any fun m => predOperand x.grp m (iA i)) ∧
        OnlyGroup s t c g ∧ WentOn t c g x) ∧
      ∃ t, Runs (.gall c g i) s t ∧
        WritesPred s t c g x.act (iDst i % 8) (fun _ => x.act.all fun m => predOperand x.grp m (iA i)) ∧
        OnlyGroup s t c g ∧ WentOn t c g x) ∧
    (Ready s c g (formR [iDst i]) i x →
      (∃ t v, Runs (.gmask c g i) s t ∧
        (∀ n, Nat.testBit v n = (x.act.contains n && predOperand x.grp n (iA i))) ∧
        Writes s t c g x.act (iDst i) (fun _ => v) ∧ OnlyGroup s t c g ∧ WentOn t c g x) ∧
      ∃ t v, Runs (.packp c g i) s t ∧
        (∀ l n, Nat.testBit (v l) n = pred x.grp l n) ∧ Writes s t c g x.act (iDst i) v ∧
        OnlyGroup s t c g ∧ WentOn t c g x) ∧
    (Ready s c g { formR [iA i] with noDst := true } i x → ∃ t, Runs (.loadp c g i) s t ∧
      (∀ l n, n < 8 → predAt t c g l n = if l ∈ x.act then (reg x.grp l (iA i)).testBit n else predAt s c g l n) ∧
      (∀ l r, regAt t c g l r = regAt s c g l r) ∧ OnlyGroup s t c g ∧ WentOn t c g x)

/-- The PRD class: the tests, and the logic and group operations. It concludes a next state of: testEq, testNe, testLtS,
testLeS, testGtS, testGeS, testLtU, testLeU, testGtU, testGeU, ftestEq, ftestNe, ftestLt, ftestLe, ftestGt, ftestGe,
plogAnd, plogOr, plogXor, packp, loadp, gany, gall, gmask. -/
def Obligations.Predicates : Prop := Says.PredicateTests ∧ Says.PredicateLogic

namespace Sys2Proof.Says

/-- As `OnlyGroup`, but CORE_STAT of the core may change. -/
structure OnlyGroupStat (s t : State) (c g : Nat) : Prop where
  rest : { t with cores := s.cores } = s
  others : ∀ d, d ≠ c → coreOf t d = coreOf s d
  groups : ∀ h, h ≠ g → mget? (coreOf t c).groups h = mget? (coreOf s c).groups h
  core : { coreOf t c with
      groups := (coreOf s c).groups
      lastSlot := (coreOf s c).lastSlot
      issueCnt := (coreOf s c).issueCnt
      resCnt := (coreOf s c).resCnt
      cycle := (coreOf s c).cycle
      stat := (coreOf s c).stat } = coreOf s c

/-- The branch of R189: each active thread of the running path goes to its target and each other one to the next
word; `bw` tells which addresses are backward (R195). The threads that share an address form one path; the one with the
lowest address that is not backward runs, else the one with the lowest address, and the others go to the tail in
ascending order. A path that goes whole backward while another path waits goes to the tail itself, and PATH_SWITCH is
set (R159, R182). -/
def Branched (s t : State) (c g : Nat) (x : Issue) (target : Nat → Nat) (bw : Nat → Bool) : Prop :=
  ∃ (p : Path) (ps : List Path) (run : Path) (rest : List Path),
    x.grp.paths = p :: ps ∧
    let goes := fun l => if l ∈ x.act then target l else x.pc + 8
    (∀ l, l < 32 → p.lanes.getLsbD l = true → ∃ d ∈ run :: rest, d.lanes.getLsbD l = true ∧ d.pc = goes l) ∧
    (∀ d ∈ run :: rest, d.lanes ≠ 0 ∧ ∀ l, d.lanes.getLsbD l = true → p.lanes.getLsbD l = true ∧ goes l = d.pc) ∧
    (∀ d ∈ rest, d.pc ≠ run.pc ∧ (bw run.pc = false → bw d.pc = false → run.pc < d.pc) ∧
      (bw run.pc = true → run.pc < d.pc ∧ bw d.pc = true)) ∧
    rest.Pairwise (fun d e => d.pc < e.pc) ∧
    let back := rest.isEmpty && !x.act.isEmpty && bw run.pc && !ps.isEmpty
    pathsAt t c g = (if back then ps ++ [run] else run :: (ps ++ rest)) ∧
    (coreOf t c).stat = (coreOf s c).stat ||| (if back then 1 else 0)

/-- Registers and predicates of a group stand. -/
def NoRegs (s t : State) (c g : Nat) : Prop :=
  (∀ l r, regAt t c g l r = regAt s c g l r) ∧ ∀ l n, predAt t c g l n = predAt s c g l n

/-- The running path waits: it goes to the tail, at its address (R159). -/
def Waits (t : State) (c g : Nat) (x : Issue) : Prop :=
  ∃ p ps, x.grp.paths = p :: ps ∧ pathsAt t c g = ps ++ [p]

/-- The lanes of the running path. -/
def runLanes (x : Issue) : BitVec 32 := match x.grp.paths with | p :: _ => p.lanes | [] => 0

/-- A context is lost with a status, at a core (R498). -/
def LostWith (t : State) (ctx : Nat) (st : Status) (core : Nat) : Prop :=
  ∃ k, ctx? t ctx = some k ∧ k.state = 2 ∧ k.loss = st ∧ k.lossCore = BitVec.ofNat 16 core

/-- The context of the issuing block is active and is not being destroyed. -/
def ActiveCtx (s : State) (x : Issue) : Prop := ∃ k, ctx? s x.blk.ctx = some k ∧ k.state = 1 ∧ k.dying = false

/-- The number that SRD reads for a thread (R157, R209). -/
def specialOf (s : State) (x : Issue) (l : Nat) : List Nat :=
  [l, x.grp.gid, x.blk.g, x.blk.bid % 2 ^ 32, x.g, x.grp.blk, if x.blk.u = 0 then 0 else x.blk.base * 65536,
    x.blk.u * 65536, x.c, ownNode s]

end Sys2Proof.Says

/-- R189, R194, R195: NOP, BRA, CALL, JMP and RET. A path that holds threads always goes on; each active thread goes
to its own target, and CALL leaves the address of the next word in each active thread's pair. BRA and CALL go backward
when IMM32 is not above 0, JMP and RET to an address not above their own. -/
def Sys2Proof.Says.Branches : Prop :=
  ∀ (s : State) (c g : Nat) (i : Insn) (x : Issue), runLanes x ≠ 0 →
    let goes := (BitVec.ofNat 64 x.pc + (i.tail.signExtend 64 <<< 3)).toNat
    let bw := fun a => decide (i.tail.toInt ≤ 0) && a == goes
    (Ready s c g (formR []) i x → ∃ t, Runs (.nop c g i) s t ∧ NoRegs s t c g ∧ OnlyGroup s t c g ∧ WentOn t c g x) ∧
    (Ready s c g { r := false, im := true, regs := [] } i x → ∃ t, Runs (.bra c g i) s t ∧
      Branched s t c g x (fun _ => goes) bw ∧
      NoRegs s t c g ∧ OnlyGroupStat s t c g) ∧
    (Ready s c g { r := false, im := true, regs := [(iDst i, 2)] } i x → ∃ t, Runs (.call c g i) s t ∧
      Branched s t c g x (fun _ => goes) bw ∧
      WritesPair s t c g x.act (iDst i) (fun _ => x.pc + 8) ∧ OnlyGroupStat s t c g) ∧
    ∀ op ∈ [Instr.jmp, Instr.ret],
      Ready s c g { regs := [(iA i, 2)], noDst := true } i x →
      (∀ l ∈ x.act, regPair x.grp l (iA i) % 8 = 0 ∧ regPair x.grp l (iA i) < 2 ^ 48) →
      ∃ t, Runs (op c g i) s t ∧ Branched s t c g x (fun l => regPair x.grp l (iA i)) (fun a => decide (a ≤ x.pc)) ∧
        NoRegs s t c g ∧ OnlyGroupStat s t c g

/-- R153, R158, R159: EXIT ends the active threads. They leave the running path, which goes when none is left; no
register or predicate changes, and memory stands. -/
def Sys2Proof.Says.ExitThreads : Prop :=
  ∀ (s : State) (c g : Nat) (i : Insn) (x : Issue), Ready s c g (formR []) i x →
    ∃ t grp, Runs (.exit c g i) s t ∧ mget? (coreOf t c).groups g = some grp ∧
      (∀ l, l < 32 → grp.ended.getLsbD l = (x.grp.ended.getLsbD l || x.act.contains l)) ∧
      (∀ p ps, x.grp.paths = p :: ps → x.act ≠ [] →
        let left := p.lanes &&& ~~~laneMask x.act
        grp.paths = if left = 0 then ps else { p with lanes := left, pc := x.pc + 8 } :: ps) ∧
      NoRegs s t c g ∧ t.mem = s.mem

/-- R161, R163: BAR and SYNCG. SYNCG waits until the running path holds every named thread that has not ended. BAR
counts threads that have not arrived before; the path goes on when its count is reached, 0 standing for every thread
of the block that has not ended, and else waits at the tail. -/
def Sys2Proof.Says.BarriersAndSyncg : Prop :=
  ∀ (s : State) (c g : Nat) (i : Insn) (x : Issue), Ready s c g { formR [iA i] with noDst := true } i x →
    (∃ t, Runs (.syncg c g i) s t ∧ NoRegs s t c g ∧ OnlyGroup s t c g ∧
      let named := BitVec.ofNat 32 (reg x.grp (lowest x) (iA i)) &&& ~~~x.grp.ended
      if x.act = [] ∨ named &&& ~~~runLanes x = 0 then WentOn t c g x else Waits t c g x) ∧
    (x.act = [] → ∃ t, Runs (.bar c g i) s t ∧ NoRegs s t c g ∧ OnlyGroup s t c g ∧ WentOn t c g x) ∧
    (x.act ≠ [] → reg x.grp (lowest x) (iA i) ≤ 32 * x.blk.g → mget? x.blk.bars (iMod i % 16) = none →
      x.grp.barDone = 0 → x.grp.barWait = [] →
      ∃ t, Runs (.bar c g i) s t ∧ NoRegs s t c g ∧
        let count := reg x.grp (lowest x) (iA i)
        let n := x.act.length
        let live := liveThreads { x.k with groups := mput x.k.groups g x.grp } x.grp.blk
        if (if count = 0 then live ≤ n else count ≤ n) then WentOn t c g x
        else Waits t c g x ∧
          ∃ blk, mget? (coreOf t c).blocks x.grp.blk = some blk ∧
            mget? blk.bars (iMod i % 16) = some { arrived := n, gone := 0, target := count })

/-- The CTL class: branches, calls and returns, the end of threads, BAR and SYNCG. It concludes a next state of: nop, bra,
jmp, call, ret, exit, bar, syncg. -/
def Obligations.ControlFlow : Prop := Says.Branches ∧ Says.ExitThreads ∧ Says.BarriersAndSyncg

/-- R157, R209: SRD writes the special register that SRC_A numbers; sr_ccycle is a pair that counts core cycles, of which
the model leaves the number that pass without an issue free (log entry 8). It concludes a next state of: srd. -/
def Obligations.SpecialRegisters : Prop :=
  ∀ (s : State) (c g : Nat) (i : Insn) (x : Issue),
    (∀ (n : Nat) (v : Nat → Nat), iA i = n → n < 10 → Ready s c g { regs := [(iDst i, 1)], ok := true } i x →
      (∀ l, (specialOf s x l)[n]? = some (v l)) →
      ∃ t, Runs (.srd c g i) s t ∧ Writes s t c g x.act (iDst i) (fun l => v l % 2 ^ 32) ∧
        OnlyGroup s t c g ∧ WentOn t c g x) ∧
    (iA i = 10 → Ready s c g { regs := [(iDst i, 2)], ok := true } i x →
      let v := (coreOf s c).cycle + BitVec.ofNat 64 (freeVal s)
      ∃ t, Runs (.srd c g i) s t ∧ WritesPair s t c g x.act (iDst i) (fun _ => v.toNat) ∧
        (coreOf t c).cycle = v + 1 ∧ OnlyGroup { s with freeIx := s.freeIx + 1 } t c g ∧ WentOn t c g x)

/-- R30, R192, R195, R210: where an instruction faults instead. A fetch outside memory loses the context with
ADDRESS_FAULT; a word of a reserved CLASS or OP, an encoding error or a register outside the block's allocation, a JMP or
RET target that is misaligned or above 48 bits, a BAR count above 32 × G and a reserved special register lose it with
INSTR_FAULT, and a poisoned source register with MEM_POISON (log entry 109). -/
def Sys2Proof.Says.InstructionFaults : Prop :=
  ∀ (s : State) (c g : Nat) (i : Insn) (x : Issue), c < 256 → g < 48 → issueOf s c g i = some x → ActiveCtx s x →
    picked s c g = true → asleep s x.pc 8 = false →
    (∀ st, fetchCheck s x.pc = some st → ∀ op ∈ [Instr.nop, Instr.add, Instr.fma, Instr.testEq, Instr.bra],
      ∃ t, Runs (op c g i) s t ∧ LostWith t x.blk.ctx st c) ∧
    (x.pc < 2 ^ 48 → memCheck s x.pc 8 = none → decodeThread 0 0 (BitVec.ofNat 64 (rdNum s x.pc 8)) = none →
      ∀ op ∈ [Instr.nop, Instr.add, Instr.fma, Instr.testEq, Instr.bra],
        ∃ t, Runs (op c g i) s t ∧ LostWith t x.blk.ctx .instrFault c) ∧
    (fetchCheck s x.pc = none →
      (∀ op ∈ intTwo, formOk x.blk.n (formRI i) i = false → ∃ t, Runs (op.1 c g i) s t ∧ LostWith t x.blk.ctx .instrFault c) ∧
      (∀ op ∈ intTests, formOk x.blk.n (formTest i) i = false → ∃ t, Runs (op.1 c g i) s t ∧ LostWith t x.blk.ctx .instrFault c) ∧
      (∀ op ∈ intTwo, formOk x.blk.n (formRI i) i = true → operandsPending x.k g x.grp (formRI i) x.act i = false →
        operandsBad x.grp (formRI i) x.act i = true → ∃ t, Runs (op.1 c g i) s t ∧ LostWith t x.blk.ctx .memPoison c) ∧
      (10 < iA i → ∃ t, Runs (.srd c g i) s t ∧ LostWith t x.blk.ctx .instrFault c) ∧
      (∀ op ∈ [Instr.jmp, Instr.ret], formOk x.blk.n { regs := [(iA i, 2)] } i = true →
        operandsPending x.k g x.grp { regs := [(iA i, 2)] } x.act i = false →
        operandsBad x.grp { regs := [(iA i, 2)], noDst := true } x.act i = false →
        (∃ l ∈ x.act, regPair x.grp l (iA i) % 8 ≠ 0 ∨ 2 ^ 48 ≤ regPair x.grp l (iA i)) →
        ∃ t, Runs (op c g i) s t ∧ LostWith t x.blk.ctx .instrFault c) ∧
      (formOk x.blk.n (formR [iA i]) i = true → operandsPending x.k g x.grp (formR [iA i]) x.act i = false →
        operandsBad x.grp { formR [iA i] with noDst := true } x.act i = false →
        x.act ≠ [] → 32 * x.blk.g < reg x.grp (lowest x) (iA i) →
        ∃ t, Runs (.bar c g i) s t ∧ LostWith t x.blk.ctx .instrFault c))

/-! ## Thread memory instructions and the tracker -/

namespace Sys2Proof.Says

/-- As `Ready`, for an instruction that reaches memory: no acquire or fence holds the group, the tracker has room,
and some thread is active (R156, R175, R314). -/
structure ReadyMem (s : State) (c g : Nat) (f : Form) (i : Insn) (x : Issue) : Prop extends Ready s c g f i x where
  unheld : x.grp.holds = []
  room : trackerFull x.k = false
  some : x.act ≠ []

/-- An access changes only its core, the free values drawn and the common part of Ruong, and in the core only its
own group, the holds of fences that end, the counts, the tracker, the fences and the L1, and the accesses that have left
are counted (R311); no register and no byte of memory changes. -/
structure OnlyAccess (s t : State) (c g : Nat) : Prop where
  rest : { t with cores := s.cores, fab := s.fab, freeIx := s.freeIx, vatSeq := s.vatSeq } = s
  others : ∀ d, d ≠ c → coreOf t d = coreOf s d
  groups : ∀ h, h ≠ g → (mget? (coreOf t c).groups h).map (fun x => { x with holds := [] }) =
    (mget? (coreOf s c).groups h).map (fun x => { x with holds := [] })
  regs : NoRegs s t c g
  core : { coreOf t c with
      groups := (coreOf s c).groups
      lastSlot := (coreOf s c).lastSlot
      issueCnt := (coreOf s c).issueCnt
      resCnt := (coreOf s c).resCnt
      cycle := (coreOf s c).cycle
      isn := (coreOf s c).isn
      acc := (coreOf s c).acc
      fences := (coreOf s c).fences
      l1 := (coreOf s c).l1 } = coreOf s c

/-- The forms of LOAD, STORE, an ATM instruction and FENCE (R200, R203, R204). -/
def formLoad (sub : BitVec 4) (i : Insn) : Form :=
  { regs := [(iDst i, wordsOf (subWidth sub)), (iA i, addrRegs (subSpace sub))], ok := memOk sub i 1
    access := true, tracked := true }
def formStore (sub : BitVec 4) (i : Insn) : Form :=
  { noDst := true, regs := [(memB i, wordsOf (subWidth sub)), (iA i, addrRegs (subSpace sub))], ok := memOk sub i 2
    access := true, tracked := true }
def formAtom (op : Nat) (wide : Bool) (i : Insn) : Form :=
  let n := if wide then 2 else 1
  { regs := [(iDst i, n), (iA i, addrRegs (atmSpace i)), (iB i, n)] ++ (if op = 10 then [(iC i, n)] else [])
    ok := scopeOk (atmScope i) (atmOrd i) && !(op == 1 && wide), access := true, tracked := true }
def formFence (i : Insn) : Form :=
  { noDst := true, regs := if atmSpace i = 1 then [(iA i, 2), (iB i, 1)] else []
    ok := atmOrd i != 0 && atmScope i != 0 && atmScope i != 7, access := true }

/-- The eleven atomics with their operation codes (R203). -/
def atomics : List ((Nat → Nat → Bool → Insn → Instr) × Nat) :=
  [(.atomAdd, 0), (.atomFadd, 1), (.atomMinS, 2), (.atomMinU, 3), (.atomMaxS, 4), (.atomMaxU, 5), (.atomAnd, 6),
   (.atomOr, 7), (.atomXor, 8), (.atomExch, 9), (.atomCas, 10)]

/-- Every active lane's address is aligned and in memory in service or at another node, and none is in control and
status space (R30, R201, R210). -/
def Reaches (s : State) (x : Issue) (w space : Nat) (kind : AccKind) (addr : Nat → Nat) : Prop :=
  laneFault s x.c w space kind (x.act.map addr) = none ∧ ∀ l ∈ x.act, isCsr (placeAddr s x.c space (addr l)) = false

/-- An access of a kind stands in the tracker of core c under the next issue number, with one part for each active
lane at its address (R172, R174). -/
def Tracked (s t : State) (x : Issue) (kind : AccKind) (w dst op space : Nat) (addr data alt : Nat → Nat) : Prop :=
  ∃ a ∈ (coreOf t x.c).acc, a.n = x.k.isn ∧ a.kind = kind ∧ a.width = w ∧ a.dst = dst ∧ a.op = op ∧ a.grp = x.g ∧
    (∀ o ∈ a.lanes, o.lane ∈ x.act) ∧
    ∀ l ∈ x.act, ∃ o ∈ a.lanes, o.lane = l ∧ o.addr = placeAddr s x.c space (addr l) ∧ o.data = data l ∧ o.alt = alt l

/-- Bytes `[a, a + n)` and the bytes of another address do not meet. -/
def Apart (a b n : Nat) : Prop := a + n ≤ b ∨ b + n ≤ a

/-- Every register of every group of every core stands. -/
def RegsStand (s t : State) : Prop := ∀ c g l r, regAt t c g l r = regAt s c g l r

/-- The part of an access for a lane, the last one when a lane has several. -/
def partOf (a : Acc) (l : Nat) : Option LaneOp := a.lanes.reverse.find? fun o => o.lane == l

/-- The group of an access takes the value of each lane in the destination, low word first, and no other register
of any lane or group of any core changes (R200). -/
def Returned (s t : State) (c : Nat) (a : Acc) (value : LaneOp → Nat) : Prop :=
  (∀ l o grp, partOf a l = some o → a.dst + wordsOf a.width ≤ 255 → mget? (coreOf t c).groups a.grp = some grp →
    regWide grp l a.dst (wordsOf a.width) = value o % 2 ^ (32 * wordsOf a.width)) ∧
  ∀ d g l r, a.dst < 256 → r < 256 →
    ¬ (d = c ∧ g = a.grp ∧ partOf a l ≠ none ∧ a.dst ≤ r ∧ r < a.dst + wordsOf a.width ∧ r < 255) →
    regAt t d g l r = regAt s d g l r

/-- An access is gone from the tracker. -/
def Gone (t : State) (c n : Nat) : Prop := ∀ b ∈ (coreOf t c).acc, b.n ≠ n

/-- What an atomic of operation `op` writes, from the old value and operands b and c as `w`-bit values (R203). -/
def atomResult (op w old b c : Nat) : Nat :=
  let x := BitVec.ofNat w old
  let y := BitVec.ofNat w b
  match op with
  | 0 => (x + y).toNat
  | 1 => fAdd old b
  | 2 => (if x.slt y then x else y).toNat
  | 3 => (if x.ult y then x else y).toNat
  | 4 => (if x.slt y then y else x).toNat
  | 5 => (if x.ult y then y else x).toNat
  | 6 => (x &&& y).toNat
  | 7 => (x ||| y).toNat
  | 8 => (x ^^^ y).toNat
  | 9 => y.toNat
  | _ => if x = y then c else old

end Sys2Proof.Says

/-- R172, R174, R200, R203: LOAD, STORE and the eleven atomics put one access for their active threads in the range
tracker of their core, each thread's part at its own address, and the group goes on; registers and memory change only
later, when the access is performed. It concludes a next state of: load, store, atomAdd, atomFadd, atomMinS, atomMinU,
atomMaxS, atomMaxU, atomAnd, atomOr, atomXor, atomExch, atomCas. -/
def Obligations.ThreadAccesses : Prop :=
  ∀ (s : State) (c g : Nat) (i : Insn) (x : Issue),
    (∀ sub : BitVec 4,
      let addr := fun l => rawAddr x.grp l (iA i) (subSpace sub) (memOff i)
      (ReadyMem s c g (formLoad sub i) i x → Reaches s x (subWidth sub) (subSpace sub) .load addr →
        ∃ t, Runs (.load c g sub i) s t ∧ WentOn t c g x ∧ OnlyAccess s t c g ∧
          Tracked s t x .load (subWidth sub) (iDst i) 0 (subSpace sub) addr (fun _ => 0) (fun _ => 0)) ∧
      (ReadyMem s c g (formStore sub i) i x → Reaches s x (subWidth sub) (subSpace sub) .store addr →
        ∃ t, Runs (.store c g sub i) s t ∧ WentOn t c g x ∧ OnlyAccess s t c g ∧
          Tracked s t x .store (subWidth sub) 255 0 (subSpace sub) addr
            (fun l => regWide x.grp l (memB i) (wordsOf (subWidth sub)) % 2 ^ (8 * subWidth sub)) (fun _ => 0))) ∧
    ∀ op ∈ atomics, ∀ wide : Bool,
      let w := if wide then 8 else 4
      let addr := fun l => rawAddr x.grp l (iA i) (atmSpace i) 0
      ReadyMem s c g (formAtom op.2 wide i) i x → Reaches s x w (atmSpace i) .atom addr →
        ∃ t, Runs (op.1 c g wide i) s t ∧ WentOn t c g x ∧ OnlyAccess s t c g ∧
          Tracked s t x .atom w (iDst i) op.2 (atmSpace i) addr (fun l => regWide x.grp l (iB i) (wordsOf w))
            (fun l => if op.2 = 10 then regWide x.grp l (iC i) (wordsOf w) else 0)

/-- R201, R210: an access of which an active thread's address is not a multiple of its width loses the context with
ALIGN_FAULT, and one whose addresses are aligned and of which one is in no memory of the map with ADDRESS_FAULT. -/
def Sys2Proof.Says.AccessFaults : Prop :=
  ∀ (s : State) (c g : Nat) (i : Insn) (x : Issue), ActiveCtx s x →
    (∀ sub : BitVec 4,
      let addr := fun l => rawAddr x.grp l (iA i) (subSpace sub) (memOff i)
      ∀ op ∈ [(Instr.load, formLoad sub i), (.store, formStore sub i)], ReadyMem s c g op.2 i x →
        ((∃ l ∈ x.act, addr l % subWidth sub ≠ 0) →
          ∃ t, Runs (op.1 c g sub i) s t ∧ LostWith t x.blk.ctx .alignFault c) ∧
        ((∀ l ∈ x.act, addr l % subWidth sub = 0) →
          (∃ l ∈ x.act, regionOf (placeAddr s c (subSpace sub) (addr l)) = .unmapped ∧
            isLocal (placeAddr s c (subSpace sub) (addr l)) = true) →
          ∃ t, Runs (op.1 c g sub i) s t ∧ LostWith t x.blk.ctx .addressFault c)) ∧
    ∀ op ∈ atomics, ∀ wide : Bool, ReadyMem s c g (formAtom op.2 wide i) i x →
      (∃ l ∈ x.act, rawAddr x.grp l (iA i) (atmSpace i) 0 % (if wide then 8 else 4) ≠ 0) →
      ∃ t, Runs (op.1 c g wide i) s t ∧ LostWith t x.blk.ctx .alignFault c

/-- Instructions and accesses that lose the context, and with which status. -/
def Obligations.ThreadFaults : Prop := Says.InstructionFaults ∧ Says.AccessFaults

/-- R204, R313 to R316: a FENCE of a scope within the core orders nothing further; one of a wider scope takes an
issue number, its release part holds until its wait point, and an acquire with no earlier load or atomic of its
group left empties the L1 at once. -/
def Sys2Proof.Says.Fences : Prop :=
  ∀ (s : State) (c g : Nat) (i : Insn) (x : Issue), Ready s c g (formFence i) i x → x.grp.holds = [] → x.act ≠ [] →
    (atmScope i < 4 → ∃ t, Runs (.fence c g i) s t ∧ NoRegs s t c g ∧ OnlyGroup s t c g ∧ WentOn t c g x) ∧
    (4 ≤ atmScope i → ∃ t, Runs (.fence c g i) s t ∧ WentOn t c g x ∧ OnlyAccess s t c g ∧
      (coreOf t c).isn = x.k.isn + 1 ∧
      (bitOf (atmOrd i) 1 = true →
        (∃ f ∈ (coreOf t c).fences, f.n = x.k.isn ∧ f.grp = g ∧ f.rel = atmScope i ∧ f.acq = bitOf (atmOrd i) 0) ∧
        ∃ grp, mget? (coreOf t c).groups g = some grp ∧ (x.k.isn, atmScope i) ∈ grp.rels) ∧
      (bitOf (atmOrd i) 1 = false → bitOf (atmOrd i) 0 = true → atmSpace i = 0 →
        (∀ a ∈ x.k.acc, a.grp = g → a.kind = .store ∨ x.k.isn ≤ a.n) → (coreOf t c).l1 = []))

/-- R173, R312, R313, R317: an access that waits for earlier ones is sent once no earlier access of its core conflicts
with it or still has to leave for one of its blocks, and waits on otherwise; a release ends when every earlier access has reached its wait point, and nothing
happens before. -/
def Sys2Proof.Says.TrackerWaits : Prop :=
  ∀ (s : State) (c n : Nat), c < 256 →
    (∀ a, findAcc s c n = some a → a.st = .conflict →
      (earlierHeld (coreOf s c) c n (accRngs c a) false = false → blockBehind (coreOf s c) a = false → a.waits = [] →
        ∃ t b, Runs (.trackedAccessRelease c n) s t ∧ findAcc t c n = some b ∧ b.st = .sent ∧ b.lanes = a.lanes ∧
          b.stamp = s.vatSeq ∧ RegsStand s t ∧ { t with cores := s.cores, fab := s.fab, vatSeq := s.vatSeq } = s) ∧
      (earlierHeld (coreOf s c) c n (accRngs c a) false = true ∨ blockBehind (coreOf s c) a = true →
        ∃ t, Runs (.trackedAccessRelease c n) s t ∧ findAcc t c n = some a ∧ t.mem = s.mem)) ∧
    ∀ scope, releaseScope (coreOf s c) n = some scope →
      (allReached (coreOf s c) c n scope = true →
        ∃ t, Runs (.releaseWaitEnd c n) s t ∧ releaseScope (coreOf t c) n = none ∧ RegsStand s t ∧
          { t with cores := s.cores, fab := s.fab, vatSeq := s.vatSeq } = s) ∧
      (allReached (coreOf s c) c n scope = false → Runs (.releaseWaitEnd c n) s s)

/-- FENCE, and the accesses and releases that wait in the tracker. It concludes a next state of: fence,
trackedAccessRelease, releaseWaitEnd. -/
def Obligations.FencesAndReleases : Prop := Says.Fences ∧ Says.TrackerWaits

/-- R200, R296, R306: a load whose responses are in, and whose parts at home memory serves (R283, R311, R317), reads them
and writes each thread's destination; memory and every other register stand, and the access leaves the tracker. One that
meets poison, in memory or on the way, loses its context with MEM_POISON. -/
def Sys2Proof.Says.LoadReturns : Prop :=
  ∀ (s : State) (c n : Nat) (a : Acc), c < 256 → findAcc s c n = some a → a.kind = .load → a.st = .sent → a.due = 0 →
    (∀ o ∈ homeLanes a, laneReady s c a o = true) →
    (a.bad = false → (∀ o ∈ homeLanes a, isBad s o.addr a.width = false) →
      ∃ t, Runs (.loadReturn c n) s t ∧
        Returned s t c a
          (fun o => match o.got with | some v => v | none => if isLocal o.addr then rdNum s o.addr a.width else 0) ∧
        Gone t c n ∧ { t with cores := s.cores, freeIx := s.freeIx } = s) ∧
    (a.bad = true ∨ (∃ o ∈ homeLanes a, isBad s o.addr a.width = true) →
      (∃ k, ctx? s a.ctx = some k ∧ k.state = 1 ∧ k.dying = false) →
      ∃ t, Runs (.loadReturn c n) s t ∧ LostWith t a.ctx .memPoison c)

/-- R201, R306, R307: a store is applied at its memory, block by block: some of its blocks of 64 bytes land now, which ones
is free, but one at least. Each part in a block that lands holds its data where no other part of the store meets it, every
other byte of memory stands, and no register changes. The parts of the other blocks stay in the tracker; once none is left
and no response is due, the store leaves it. -/
def Sys2Proof.Says.StoresPerformed : Prop :=
  ∀ (s : State) (c n : Nat) (a : Acc), c < 256 → findAcc s c n = some a → a.kind = .store → a.st = .sent →
    a.home = false → a.csr = false → (∀ o ∈ homeLanes a, laneReady s c a o = true) →
    ∃ (t : State) (land : Nat → Bool), Runs (.writePerformed c n) s t ∧
      (homeLanes a ≠ [] → ∃ o ∈ homeLanes a, land (o.addr / 64) = true) ∧
      (∀ o ∈ homeLanes a, land (o.addr / 64) = true → (∀ p ∈ homeLanes a, p = o ∨ Apart p.addr o.addr a.width) →
        rdNum t o.addr a.width = o.data % 256 ^ a.width) ∧
      (∀ b, (∀ o ∈ homeLanes a, land (o.addr / 64) = true → b < o.addr ∨ o.addr + a.width ≤ b) → rdByte t b = rdByte s b) ∧
      (∀ b, findAcc t c n = some b → homeLanes b = (homeLanes a).filter fun o => !land (o.addr / 64)) ∧
      RegsStand s t ∧ (a.due = 0 → (∀ o ∈ homeLanes a, land (o.addr / 64) = true) → Gone t c n) ∧
      { t with cores := s.cores, mem := s.mem, bad := s.bad, turn := s.turn, freeIx := s.freeIx } = s

/-- R166, R168, R171, R203: an atomic whose one part at home is due reads the old value, writes the result of its
operation at that address and no other byte, and returns the old value to its thread. -/
def Sys2Proof.Says.AtomicsPerformed : Prop :=
  ∀ (s : State) (c n : Nat) (a : Acc) (o : LaneOp), c < 256 → findAcc s c n = some a → a.kind = .atom →
    a.st = .sent → a.due = 0 → a.lanes = [o] → isLocal o.addr = true → o.got = none → (a.width = 4 ∨ a.width = 8) →
    a.op ≤ 10 → laneReady s c a o = true → a.bad = false → isBad s o.addr a.width = false →
    o.data < 256 ^ a.width → o.alt < 256 ^ a.width →
    ∃ t, Runs (.atomicPerformed c n) s t ∧
      (a.op ≠ 1 → rdNum t o.addr a.width = atomResult a.op (8 * a.width) (rdNum s o.addr a.width) o.data o.alt) ∧
      (a.op = 1 → rdNum t o.addr a.width = fAdd (rdNum s o.addr a.width) o.data % 256 ^ a.width) ∧
      (∀ b, b < o.addr ∨ o.addr + a.width ≤ b → rdByte t b = rdByte s b) ∧
      Returned s t c a (fun _ => rdNum s o.addr a.width) ∧ Gone t c n

/-- What a load returns, what a store leaves in memory, and what an atomic does. It concludes a next state of: loadReturn,
writePerformed, atomicPerformed. -/
def Obligations.AccessesPerformed : Prop := Says.LoadReturns ∧ Says.StoresPerformed ∧ Says.AtomicsPerformed

/-! ## The press and the whey unit of a core -/

namespace Sys2Proof.Says

/-- An issue instruction has answered: td holds `v` and pd holds `ok` in every active thread, and no other register
or predicate changes (R102, R227). -/
def Answers (s t : State) (c g : Nat) (x : Issue) (i : Insn) (v : Nat) (ok : Bool) : Prop :=
  (∀ l ∈ x.act, iDst i ≠ 255 → regAt t c g l (iDst i) = v) ∧ (∀ l ∈ x.act, predAt t c g l (iMod i % 8) = ok) ∧
  (∀ l r, r < 256 → ¬ (l ∈ x.act ∧ r = iDst i) → regAt t c g l r = regAt s c g l r) ∧
  ∀ l m, m < 8 → ¬ (l ∈ x.act ∧ m = iMod i % 8) → predAt t c g l m = predAt s c g l m

/-- The form of MXISSUE and WXISSUE (R205, R206), and of CVT. -/
def formIssue (i : Insn) : Form := { regs := [(iDst i, 1), (iA i, 1)], access := true }
def formCvt (i : Insn) : Form :=
  { regs := [(iDst i, 1), (iA i, 1), (iB i, 1), (iC i, 2)]
    ok := cvtPair (fld (iMod i) 15 12) (fld (iMod i) 11 8) && fld (iMod i) 7 6 != 3, access := true }

/-- A completion counter has reached a value: their difference as a 32-bit number is not negative (R132). -/
def Reached (cc : Map Word) (n v : Nat) : Prop := (mget cc 0 n - BitVec.ofNat 32 v).msb = false

/-- The run at place i of a core, with the oldest row in the array: pass, row, member and streaming row
of the member; the press clock runs and no read of the row meets poison (R124, R129, R296, R541). -/
structure OldestRow (s : State) (c i : Nat) (r : PressRun) (p row : Nat) (rest : List (Nat × Nat)) (mi j : Nat)
    (m : PressEntry) : Prop where
  core : c < 256
  clock : pressRuns s c = true
  first : oldestRow (coreOf s c).press = i
  run : (coreOf s c).press.runs[i]? = some r
  oldest : r.flight = (p, row) :: rest
  place : (runRows r)[row]? = some (mi, j)
  entry : r.members[mi]? = some m
  clean : r.poison = false
  tile : r.tilePoison = false
  reads : rowBad s c m.words p j = false
  live : r.rerun.isSome = true ∨ ∀ f ∈ r.failed, f.1 ≠ row

/-- The runs of a press but for the one at a place stand. -/
def OtherRuns (s t : State) (c i : Nat) : Prop :=
  ∀ n, n ≠ i → (coreOf t c).press.runs[n]? = (coreOf s c).press.runs[n]?

/-- A group of a chain lands block by block: its bytes stand in memory in the blocks that have landed, which are free, and
in all of them once the rest has landed too (R307). -/
def GroupLands (u t full : State) (c : Nat) : Prop :=
  ∃ land : Nat → Bool, (∀ b, rdByte t b = if land (b / 64) then rdByte full b else rdByte u b) ∧
    ∀ b, rdByte (landLate t c) b = rdByte full b

/-- A launch that had no fault has this one as its first (R483). -/
def Faulted (s t : State) (launch : Nat × Nat) (st : Status) : Prop :=
  ∀ m, cmd? s launch.1 launch.2 = some m → m.fault = none → ∃ m', cmd? t launch.1 launch.2 = some m' ∧ m'.fault = some st

end Sys2Proof.Says

/-- R102, R105, R106: MXISSUE. An offset that is no multiple of 64 and a descriptor that R117 refuses answer
DESC_INVALID with pd 0 and queue nothing, and so does every other descriptor that a test refuses, with the status of that
test; an offset whose descriptor passes the end of the scratchpad loses the
context with ADDRESS_FAULT; a descriptor that passes every test enters the press queue with the next sequence number,
which td returns with pd 1. -/
def Sys2Proof.Says.PressIssue : Prop :=
  ∀ (s : State) (c g : Nat) (i : Insn) (x : Issue), Ready s c g (formIssue i) i x → x.grp.holds = [] → x.act ≠ [] →
    let off := reg x.grp (lowest x) (iA i)
    descPending x.k c off 64 = false → mayTake x.k.press.stall g (128 - pressDepth x.k) = true →
    (off % 64 ≠ 0 → ∃ t, Runs (.mxissue c g i) s t ∧ Answers s t c g x i 0x0010 false ∧ WentOn t c g x ∧
      (coreOf t c).press.queue = x.k.press.queue ∧ t.mem = s.mem) ∧
    (off % 64 = 0 → 0x1800000 < off + 64 → ActiveCtx s x →
      ∃ t, Runs (.mxissue c g i) s t ∧ LostWith t x.blk.ctx .addressFault c) ∧
    (off % 64 = 0 → off + 64 ≤ 0x1800000 → isBad s (spadBase c + off) 64 = false →
      descBad (rdWords s (spadBase c + off) 8) = true →
      ∃ t, Runs (.mxissue c g i) s t ∧ Answers s t c g x i 0x0010 false ∧ WentOn t c g x ∧
        (coreOf t c).press.queue = x.k.press.queue ∧ t.mem = s.mem) ∧
    (∀ st, checkDesc s c off = .refuse st → ∃ t, Runs (.mxissue c g i) s t ∧ Answers s t c g x i st.code false ∧
      WentOn t c g x ∧ (coreOf t c).press.queue = x.k.press.queue ∧ t.mem = s.mem) ∧
    ∀ ws, checkDesc s c off = .ok ws →
      ∃ t e, Runs (.mxissue c g i) s t ∧ Answers s t c g x i x.k.press.seq.toNat true ∧ WentOn t c g x ∧
        e ∈ pressHeld (coreOf t c) ∧ e.words = ws ∧ e.off = off ∧ e.seq = x.k.press.seq ∧ e.ctx = x.blk.ctx ∧
        (coreOf t c).press.seq = x.k.press.seq + 1

/-- R206, R208, R227, R228, R233: WXISSUE and CVT. A chain that passes every test enters the whey queue with the
next sequence number, which td returns; a refused one answers its status and queues nothing. WXISSUE also writes
pd. -/
def Sys2Proof.Says.ChainIssue : Prop :=
  ∀ (s : State) (c g : Nat) (i : Insn) (x : Issue), x.grp.holds = [] → x.act ≠ [] →
    mayTake x.k.whey.stall g (32 - wheyDepth x.k) = true →
    (Ready s c g (formIssue i) i x →
      let off := reg x.grp (lowest x) (iA i)
      descPending x.k c off 192 = false →
      (off % 64 ≠ 0 → ∃ t, Runs (.wxissue c g i) s t ∧ Answers s t c g x i 0x0010 false ∧ WentOn t c g x ∧
        (coreOf t c).whey.queue = x.k.whey.queue ∧ t.mem = s.mem) ∧
      (∀ st, checkChainAt s c off = .refuse st → ∃ t, Runs (.wxissue c g i) s t ∧ Answers s t c g x i st.code false ∧
        WentOn t c g x ∧ (coreOf t c).whey.queue = x.k.whey.queue ∧ t.mem = s.mem) ∧
      (∀ st, checkChainAt s c off = .fault st → ActiveCtx s x →
        ∃ t, Runs (.wxissue c g i) s t ∧ LostWith t x.blk.ctx st c) ∧
      ∀ ch, checkChainAt s c off = .ok ch →
        ∃ t e, Runs (.wxissue c g i) s t ∧ Answers s t c g x i x.k.whey.seq.toNat true ∧ WentOn t c g x ∧
          (coreOf t c).whey.queue = x.k.whey.queue ++ [e] ∧ e.chain = ch ∧ e.off = off ∧ e.seq = x.k.whey.seq ∧
          (coreOf t c).whey.seq = x.k.whey.seq + 1) ∧
    (Ready s c g (formCvt i) i x →
      let n := reg x.grp (lowest x) (iC i)
      (n = 0 → ∃ t, Runs (.cvt c g i) s t ∧ Writes s t c g x.act (iDst i) (fun _ => 0x0010) ∧ WentOn t c g x ∧
        (coreOf t c).whey.queue = x.k.whey.queue ∧ t.mem = s.mem) ∧
      ∀ ch scl bad, scl = (if iC i = 255 then 0 else reg x.grp (lowest x) (iC i + 1)) →
        ch = cvtChain (fld (iMod i) 15 12) (fld (iMod i) 11 8) (fld (iMod i) 7 6) (fld (iMod i) 5 0)
          (reg x.grp (lowest x) (iA i)) (reg x.grp (lowest x) (iB i)) n scl →
        bad = (n == 0 || decide (2 ^ 24 < n) ||
          ((fld (iMod i) 15 12 == 8 || fld (iMod i) 11 8 == 8) && n % 64 != 0) || badScale (fld (iMod i) 11 8) scl ||
          (chainOps ch).any fun o => !opOk o) →
        (∀ st, checkChain s c ch bad = .refuse st → ∃ t, Runs (.cvt c g i) s t ∧
          Writes s t c g x.act (iDst i) (fun _ => st.code) ∧ WentOn t c g x ∧
          (coreOf t c).whey.queue = x.k.whey.queue ∧ t.mem = s.mem) ∧
        (∀ st, checkChain s c ch bad = .fault st → ActiveCtx s x → ∃ t, Runs (.cvt c g i) s t ∧ LostWith t x.blk.ctx st c) ∧
        (checkChain s c ch bad = .ok ch →
          ∃ t e, Runs (.cvt c g i) s t ∧ Writes s t c g x.act (iDst i) (fun _ => x.k.whey.seq.toNat) ∧
            WentOn t c g x ∧ (coreOf t c).whey.queue = x.k.whey.queue ++ [e] ∧ e.chain = ch ∧ e.seq = x.k.whey.seq))

/-- R132, R232: MXWAIT and WXWAIT go on when the completion counter has reached the value and else wait at the tail;
nothing else changes. -/
def Sys2Proof.Says.CompletionWaits : Prop :=
  ∀ (s : State) (c g : Nat) (i : Insn) (x : Issue), Ready s c g { formR [iA i] with noDst := true } i x → x.act ≠ [] →
    ∀ op ∈ [(Instr.mxwait, x.k.press.cc), (.wxwait, x.k.whey.cc)],
      let v := reg x.grp (lowest x) (iA i)
      (Reached op.2 (iMod i % 64) v →
        ∃ t, Runs (op.1 c g i) s t ∧ NoRegs s t c g ∧ OnlyGroup s t c g ∧ WentOn t c g x) ∧
      (¬ Reached op.2 (iMod i % 64) v →
        ∃ t, Runs (op.1 c g i) s t ∧ NoRegs s t c g ∧ OnlyGroup s t c g ∧ Waits t c g x)

/-- MXISSUE, WXISSUE and CVT, MXWAIT and WXWAIT. It concludes a next state of: mxissue, mxwait, wxissue, wxwait, cvt. -/
def Obligations.UnitIssue : Prop := Says.PressIssue ∧ Says.ChainIssue ∧ Says.CompletionWaits

/-- R119 to R123, R124: a load starts into the free shadow tile, ends with the tile full, a swap makes a full shadow
tile that the next pass needs active, with its tag unless a row runs again, and a row enters a ready pass, also the first
row of a pass on the tile of the pass before it. The head of the queue begins where it may, also behind a descriptor whose
last row has entered. Each changes the press of its core and the use of the press in the metering period alone. -/
def Sys2Proof.Says.PressTilesAndRows : Prop :=
  ∀ (s : State) (c : Nat), c < 256 → pressRuns s c = true →
    let k := beginRun (coreOf s c)
    let i := leadRun k.press
    (∀ tag es, nextLoad (coreOf s c) = some (tag, es) → (coreOf s c).press.shadow = none →
      entriesHeld (coreOf s c) c es = false →
      Runs (.pressLoadStart c) s
        (pressUses (modPress s c fun p => { p with shadow := some ⟨tag, false, false⟩ }) c)) ∧
    (∀ sh, (coreOf s c).press.shadow = some sh →
      Runs (.pressLoadEnd c) s
        (modPress s c fun p => { p with shadow := some ⟨sh.tag, true, tileBad s c sh.tag⟩ })) ∧
    (∀ r sh, k.press.runs[i]? = some r → r.gather = false → k.press.shadow = some sh → sh.full = true →
      mayEnter k.press r = true →
      (r.ready = false → sh.tag = passTag r r.pass →
        Runs (.pressSwap c) s
          (setCore s c { k with press :=
            { setRun k.press i { r with entered := 0, ready := true, tilePoison := sh.poison } with
              tile := (if r.rerun.isSome then none else some sh.tag), shadow := none } })) ∧
      (r.ready = true → r.entered = (liveRows r).length → r.pass + 1 < passCount r → samePiece r (r.pass + 1) = false →
        sh.tag = passTag r (r.pass + 1) →
        Runs (.pressSwap c) s
          (setCore s c { k with press :=
            { setRun k.press i { r with pass := r.pass + 1, entered := 0, ready := true, tilePoison := sh.poison } with
              tile := (if r.rerun.isSome then none else some sh.tag), shadow := none } }))) ∧
    ∀ r row, k.press.runs[i]? = some r → r.gather = false → r.ready = true → r.dead = false → r.poison = false →
      mayEnter k.press r = true → (fresh r = true → accBehind k.press i r = false) →
      entriesHeld k c r.members = false → (∀ f ∈ r.flight, f.2 ≠ row) →
      ((liveRows r)[r.entered]? = some row →
        Runs (.pressRowEntry c) s
          (pressUses
            (setCore s c { k with
              press := setRun k.press i { r with entered := r.entered + 1, flight := r.flight ++ [(r.pass, row)] } }) c)) ∧
      (r.entered = (liveRows r).length → r.pass + 1 < passCount r → samePiece r (r.pass + 1) = true →
        (liveRows r)[0]? = some row →
        Runs (.pressRowEntry c) s
          (pressUses
            (setCore s c { k with
              press := setRun k.press i
                { r with pass := r.pass + 1, entered := 1, flight := r.flight ++ [(r.pass + 1, row)] } }) c))

/-- R91, R93, R100, R107, R116, R124: a row whose checks pass writes its outputs to its destination in accumulator memory
and to no other element, and leaves the array. A row whose check fails writes nothing: the first time it is kept for a
re-run and CK_MISMATCH (bit 4) is set, in a re-run the descriptor ends and bits 4, 5 and 6 are set. What has begun
behind it, or before it, goes on. It concludes a next state of: pressOutputWrite. -/
def Obligations.PressOutputs : Prop :=
  ∀ (s : State) (c i : Nat) (r : PressRun) (p row : Nat) (rest : List (Nat × Nat)) (mi j : Nat) (m : PressEntry)
    (e : PressErr), OldestRow s c i r p row rest mi j m →
    let outs := rowOutputs s c m.words p j e
    let dest := (dDestRow m.words j).1
    let pass := (∀ o ∈ outs, o.ok = true) ∧ crossOk s c m.words p j outs e.cross = true
    (pass → ∃ t r', Runs (.pressOutputWrite c e) s t ∧
      (∀ n o, outs[n]? = some o → mget (coreOf t c).accMem 0 (dest + n) = BitVec.ofNat 32 o.val) ∧
      (∀ a, (a < dest ∨ dest + outs.length ≤ a) → mget (coreOf t c).accMem 0 a = mget (coreOf s c).accMem 0 a) ∧
      (coreOf t c).press.runs[i]? = some r' ∧ r'.flight = rest ∧ OtherRuns s t c i ∧ t.mem = s.mem) ∧
    (¬ pass → ∃ t r', Runs (.pressOutputWrite c e) s t ∧ (coreOf t c).accMem = (coreOf s c).accMem ∧
      (coreOf t c).press.runs[i]? = some r' ∧ (coreOf t c).press.stat.getLsbD 4 = true ∧
      (r.rerun = none → r'.failed = r.failed ++ [(row, p)] ∧ r'.flight = rest ∧ r'.dead = r.dead) ∧
      (r.rerun.isSome = true → r'.dead = true ∧ r'.flight = [] ∧ (coreOf t c).press.stat.getLsbD 5 = true ∧
        (coreOf t c).press.stat.getLsbD 6 = true) ∧ OtherRuns s t c i ∧ t.mem = s.mem)

/-- R92: once every row has left the array, the first failed row runs again from its failed pass, with its tile loaded
anew; what has begun behind it has no row in the array, and loads its first tile again if none of its rows has entered. -/
def Sys2Proof.Says.PressReruns : Prop :=
  ∀ (s : State) (c i : Nat) (r : PressRun) (row p : Nat) (more : List (Nat × Nat)), c < 256 → pressRuns s c = true →
    (coreOf s c).press.runs[i]? = some r → r.failed = (row, p) :: more → r.dead = false → r.poison = false →
    (∀ n b, n < i → (coreOf s c).press.runs[n]? = some b → b.failed = [] ∨ ends b = true) →
    r.gather = false → r.ready = true → r.flight = [] → r.entered = rowTotal r.members → r.pass + 1 = passCount r →
    r.rerun = none →
    (∀ n b, i < n → (coreOf s c).press.runs[n]? = some b →
      fresh b = true ∨ rowsDone b = true ∨ (ends b = true ∧ b.flight = [])) →
    Runs (.pressRerun c) s
      (modPress s c fun x =>
        setRun { x with tile := none, shadow := none, runs := x.runs.map reload } i
          { r with rerun := some row, pass := p, entered := 0, ready := false })

/-- R93, R125, R129, R131, R232, R243, R483: a press descriptor or a chain that is done completes: what has begun behind
it goes on, LAST_SEQ is its sequence number, and the completion counter that it names goes up by one. A second
mismatch gives the launch of the descriptor PRESS_FAULT, and that of the chain WHEY_FAULT, where it has no fault yet;
one that met poison loses its context with MEM_POISON. It concludes a next state of: descriptorComplete,
chainComplete. -/
def Obligations.Completions : Prop :=
  ∀ (s : State) (c : Nat), c < 256 →
    (pressRuns s c = true → ∀ r e h, runDone (coreOf s c) = some r → r.members = [e] → r.hits = [h] → r.poison = false →
      ∃ t, Runs (.descriptorComplete c) s t ∧ (coreOf t c).press.runs = (coreOf s c).press.runs.tail ∧
        (r.dead = true → Faulted s t e.launch .pressFault) ∧
        (coreOf t c).press.lastSeq = BitVec.ofNat 16 e.seq.toNat ∧
        ∀ n, mget (coreOf t c).press.cc 0 n = mget (coreOf s c).press.cc 0 n +
          (if dField e.words 7 6 6 = 1 ∧ n = dField e.words 7 5 0 then 1 else 0)) ∧
    (pressRuns s c = true → ∀ r e rest, runDone (coreOf s c) = some r → r.members = e :: rest → r.poison = true →
      (∃ k, ctx? s e.ctx = some k ∧ k.state = 1 ∧ k.dying = false) →
      ∃ t, Runs (.descriptorComplete c) s t ∧ (coreOf t c).press.runs = (coreOf s c).press.runs.tail ∧
        LostWith t e.ctx .memPoison c) ∧
    (pllDown s (4 + c / 64) = false → ∀ r, chainDone (coreOf s c) = some r →
      (r.dead ≠ some .memPoison →
        ∃ t, Runs (.chainComplete c) s t ∧ (coreOf t c).whey.runs = (coreOf (landLate s c) c).whey.runs.tail ∧
          (∀ st, r.dead = some st → Faulted s t r.e.launch st) ∧
          (coreOf t c).whey.lastSeq = BitVec.ofNat 16 r.e.seq.toNat ∧ t.mem = (landLate s c).mem ∧
          ∀ n, mget (coreOf t c).whey.cc 0 n = mget (coreOf s c).whey.cc 0 n +
            (if r.e.chain.ccEn = true ∧ n = r.e.chain.ccIdx then 1 else 0)) ∧
      (r.dead = some .memPoison → (∃ k, ctx? s r.e.ctx = some k ∧ k.state = 1 ∧ k.dying = false) →
        ∃ t, Runs (.chainComplete c) s t ∧ LostWith t r.e.ctx .memPoison c))

/-- R127, R128, R136: a coalescing descriptor at the head of the queue opens a batch, which gathers until it closes,
also behind a descriptor whose last row has entered; a written PRESS_CO_CTL takes effect. The expiry of WAIT closes the
batch. -/
def Sys2Proof.Says.Batches : Prop :=
  ∀ (s : State) (c : Nat), c < 256 → pressRuns s c = true →
    (∀ e rest ctl, mayBegin (coreOf s c).press = true →
      (coreOf s c).press.queue = e :: rest → dField e.words 0 10 10 = 1 →
      ctl = (match (coreOf s c).press.coNext with | some v => v | none => (coreOf s c).press.coCtl) →
      ctl.getLsbD 31 = true →
      ∃ t r, Runs (.batchOpen c) s t ∧ (coreOf t c).press.runs = (coreOf s c).press.runs ++ [r] ∧ r.members.head? = some e ∧
        (coreOf t c).press.coCtl = ctl ∧ (coreOf t c).press.coNext = none ∧
        r.fill = (ctl.extractLsb' 16 10).toNat ∧ r.wait = (ctl.extractLsb' 0 16).toNat ∧
        (∀ x, x ∈ pressHeld (coreOf t c) ↔ x ∈ pressHeld (coreOf s c)) ∧
        (∀ x ∈ r.members, x = e ∨ batchMatch e.words x.words = true) ∧
        { t with cores := s.cores } = s) ∧
    Runs (.batchWaitExpiry c) s
      (modPress s c fun p => { p with runs := p.runs.map fun r => { r with gather := false } })

/-- Tiles and rows of the press, re-runs, and batches. It concludes a next state of: pressLoadStart, pressLoadEnd,
pressSwap, pressRowEntry, pressRerun, batchOpen, batchWaitExpiry. -/
def Obligations.PressSequencing : Prop := Says.PressTilesAndRows ∧ Says.PressReruns ∧ Says.Batches

/-- R131, R136, R143, R232, R239, R251, R275, R539: the writes of PRESS_CO_CTL, of completion counters and of the culture,
the free of a saturation entry, the reads that clear, and the stop of an idle press clock. While the press clock does
not run, a write to the press waits in the queue of 8, with a wake request at the gate, and a program's write waits
before a full one. It concludes a next state of: pressClockStop, pressCoCtlWrite, pressCcWrite, pressSatFree,
wheyCcWrite, cultureWrite, readWheyNanCnt, readPressSatOther. -/
def Obligations.PressAndWheyRegisters : Prop :=
  ∀ (s : State) (c : Nat), c < 256 →
    (∀ v : Word, pressRuns s c = true → ∃ w : Word,
      Runs (.pressCoCtlWrite c v) s (modPress s c fun p => { p with coNext := some w }) ∧
      w.extractLsb' 0 16 = v.extractLsb' 0 16 ∧
      w.extractLsb' 16 10 = (if v.extractLsb' 16 10 = 0 then 1 else v.extractLsb' 16 10) ∧
      w.extractLsb' 26 5 = 0 ∧ w.getLsbD 31 = v.getLsbD 31) ∧
    (∀ (n : Nat) (v : Word), n < 64 →
      (pressRuns s c = true → Runs (.pressCcWrite c n v false) s (modPress s c fun p => { p with cc := mset p.cc 0 n v })) ∧
      Runs (.wheyCcWrite c n v false) s (modWhey s c fun w => { w with cc := mset w.cc 0 n v })) ∧
    (pressRuns s c = false → ∀ (n : Nat) (v : Word), n < 64 →
      ∀ iw ∈ [(Instr.pressCoCtlWrite c v, (none : Option Nat)), (.pressCcWrite c n v false, some n)],
        ((coreOf s c).press.writes.length < 8 → Runs iw.1 s
          (modPress (pressWake s c) c fun p => { p with writes := p.writes ++ [(iw.2, v)] })) ∧
        (8 ≤ (coreOf s c).press.writes.length → Runs iw.1 s s)) ∧
    (∀ (n : Nat) (v : Word) (r : PressRun) (e : PressEntry) (h : Nat), n < 64 → runDone (coreOf s c) = some r →
      r.members = [e] → r.hits = [h] → r.poison = false → pressRuns s c = true →
      ∃ t, Runs (.pressCcWrite c n v true) s t ∧ (coreOf t c).press.runs = (coreOf s c).press.runs.tail ∧
        mget (coreOf t c).press.cc 0 n =
          v + (if dField e.words 7 6 6 = 1 ∧ dField e.words 7 5 0 = n then 1 else 0)) ∧
    (∀ n, n < 32 → ∃ t, Runs (.pressSatFree c n) s t ∧
      t = modPress s c (fun p => { p with sat := (coreOf t c).press.sat }) ∧
      (mget (coreOf t c).press.sat 0 n).getLsbD 63 = false ∧
      fld (mget (coreOf t c).press.sat 0 n).toNat 31 0 = 0 ∧
      fld (mget (coreOf t c).press.sat 0 n).toNat 56 32 = fld (mget (coreOf s c).press.sat 0 n).toNat 56 32 ∧
      ∀ m, m ≠ n → mget (coreOf t c).press.sat 0 m = mget (coreOf s c).press.sat 0 m) ∧
    ((coreOf s c).press.queue = [] → (coreOf s c).press.runs = [] → (coreOf s c).press.writes = [] →
      (coreOf s c).press.wake = false → (∀ sh, (coreOf s c).press.shadow = some sh → sh.full = true) →
      Runs (.pressClockStop c) s (modPress s c fun p => { p with stopped := true })) ∧
    ((coreOf s c).whey.runs = [] → (coreOf s c).whey.queue = [] → (coreOf s c).whey.writes = [] →
      ∀ v : Dword,
        Runs (.cultureWrite c none v) s (modWhey s c fun w => { w with seed := v }) ∧
        ∀ l, l < 64 → Runs (.cultureWrite c (some l) v) s (modWhey s c fun w => { w with ctr := mset w.ctr 0 l v })) ∧
    Runs (.readWheyNanCnt c) s
      (emit (modWhey s c fun w => { w with nanCnt := 0 }) (.reg (BitVec.ofNat 64 (coreOf s c).whey.nanCnt.toNat))) ∧
    Runs (.readPressSatOther c) s
      (emit (modPress s c fun p => { p with satOther := 0 }) (.reg (BitVec.ofNat 64 (coreOf s c).press.satOther.toNat)))

/-- R226, R231, R238: the next group of the chain that began last enters when no earlier access of its ranges is left and,
in a chain that reads what another group of it writes, once the group before has written; the culture counter of every lane
goes up by the number of the chain's drawing stages. The chain at the head of the queue begins so where it may: every group
of the chain before it has entered, and no region in common holds it back. -/
def Sys2Proof.Says.ChainGroupsEnter : Prop :=
  ∀ (s : State) (c : Nat), c < 256 → pllDown s (4 + c / 64) = false → (coreOf s c).whey.writes = [] →
    let w := (coreOf s c).whey
    (∀ r, w.runs[lastChain w]? = some r → r.entered < groupTotal r.e.chain →
      (chainAcross r.e.chain = true → r.entered = r.written) →
      earlierHeld (coreOf s c) c r.e.n (chainRngs r.e.chain) false = false →
      ∃ t, Runs (.chainGroupEntry c) s t ∧
        (coreOf t c).whey.runs = lset w.runs (lastChain w) { r with entered := r.entered + 1 } ∧
        (r.e.replay = false → ∀ l, l < 64 →
          mget (coreOf t c).whey.ctr 0 l = mget w.ctr 0 l + BitVec.ofNat 64 (drawCount r.e.chain)) ∧
        { t with cores := s.cores } = s) ∧
    ∀ e rest, w.queue = e :: rest → (∀ r, w.runs[lastChain w]? = some r → r.entered = groupTotal r.e.chain ∧ r.dead = none) →
      0 < groupTotal e.chain → earlierHeld (beginChain (coreOf s c)) c e.n (chainRngs e.chain) false = false →
      ∃ t r, Runs (.chainGroupEntry c) s t ∧ (coreOf t c).whey.runs = w.runs ++ [r] ∧ r.e = e ∧ r.entered = 1 ∧
        r.written = 0 ∧ (coreOf t c).whey.queue = rest ∧ { t with cores := s.cores } = s

/-- R225, R241 to R243, R307: the oldest entered group is computed by its stages and written, to scratchpad block by block:
blocks of the group before that have not landed do so first. In a DUAL chain a group whose two runs differ is not written,
MISMATCH (bit 5) is set and the group runs again; runs that agree then write it, and runs that differ again end the chain's
writes with bits 5, 6 and 7 set. -/
def Sys2Proof.Says.ChainGroupsWritten : Prop :=
  ∀ (s : State) (c i : Nat) (r : WheyRun), c < 256 → pllDown s (4 + c / 64) = false →
    let u := landLate s c
    oldestChain (coreOf u c).whey = i → (coreOf u c).whey.runs[i]? = some r → r.dead = none →
    let ch := r.e.chain
    let j := 64 * (r.written % ceilDiv ch.cols 64)
    let out := runGroup u c ch r.written r.part (fun d l => drawOf (coreOf u c).whey r r.written d l)
    let onchip := out.writes.foldl (fun s w => wheyPut s c w) u
    let full := (groupBlocks c out.writes).foldl (fun s w => memPut s w.addr w.data) onchip
    let written := fun (n : Instr) => ∃ t r', Runs n s t ∧ GroupLands u t full c ∧
      (coreOf t c).accMem = (coreOf onchip c).accMem ∧ (coreOf t c).oc = (coreOf onchip c).oc ∧
      (coreOf t c).whey.runs[i]? = some r' ∧ r'.written = r.written + 1 ∧ r'.mism = false ∧ r'.dead = none
    let kept := fun (t : State) => t.mem = u.mem ∧ (coreOf t c).accMem = (coreOf s c).accMem ∧
      (coreOf t c).oc = (coreOf s c).oc
    groupBad u c ch (r.written / ceilDiv ch.cols 64) j (min 64 (ch.cols - j)) = false →
    (r.mism = false → r.written < r.entered → ∀ differ, (differ && ch.dual) = false →
      written (.chainGroupWrite c differ)) ∧
    (r.mism = false → r.written < r.entered → ch.dual = true →
      ∃ t, Runs (.chainGroupWrite c true) s t ∧ (coreOf t c).whey.runs[i]? = some { r with mism := true } ∧
        (coreOf t c).whey.stat.getLsbD 5 = true ∧ kept t) ∧
    (r.mism = true → written (.wheyGroupRerun c false)) ∧
    (r.mism = true → ∃ t r', Runs (.wheyGroupRerun c true) s t ∧ (coreOf t c).whey.runs[i]? = some r' ∧
      r'.dead = some .wheyFault ∧ (coreOf t c).whey.stat.getLsbD 5 = true ∧ (coreOf t c).whey.stat.getLsbD 6 = true ∧
      (coreOf t c).whey.stat.getLsbD 7 = true ∧ kept t)

/-- The groups of a chain enter, and are written. It concludes a next state of: chainGroupEntry, chainGroupWrite,
wheyGroupRerun. -/
def Obligations.ChainGroups : Prop := Says.ChainGroupsEnter ∧ Says.ChainGroupsWritten

/-! ## Ladles, memory controllers, regeneration, phases and turning -/

namespace Sys2Proof.Says

/-- A ladle command that moves data runs in ladle `l`, block `k` of it is still to be done, and it goes to `d` in this
module's memory: `n` bytes, in service, awake and not held (R140, R283, R300, R429). -/
structure BlockDue (s : State) (l k : Nat) (r : LadleRun) (d a off n : Nat) : Prop where
  ladle : l < 16
  hub : HubRuns s
  runs : mget? s.ladles l = some r
  good : r.fail = none
  todo : k ∉ r.done
  idle : k ∉ r.due
  moves : lNvme r.cmd = false
  place : blockPlace s r.cmd k = some (d, a, off, n)
  home : isLocal d = true
  served : memCheck s d n = none
  awake : asleep s d n = false
  open_ : writeHeld s d n = false
  early : ∀ c, r.cmd.core = some c → optHeld s c.1 d n = false

/-- Bytes of memory outside a range stand. -/
def MemStands (s t : State) (a n : Nat) : Prop := ∀ b, b < a ∨ a + n ≤ b → rdByte t b = rdByte s b

/-- NVMe command i of the command in ladle `l` is under way since time `t0` (R586, R587). -/
structure NvmeWaits (s : State) (l i : Nat) (x : LadleRun) (t0 : Nat) : Prop where
  ladle : l < 16
  hub : HubRuns s
  runs : mget? s.ladles l = some x
  sent : x.nv.find? (fun q => q.1 == i) = some (i, t0)
  past : i < x.nvNext
  good : x.fail = none

/-- Every write into a range by a hub agent is performed at once: no bank, turning, regeneration, parked channel or
earlier held write makes it wait (R140, R256, R283, R429). -/
def Open (s : State) (a n : Nat) : Prop := ∀ b m, a ≤ b → b + m ≤ a + n → writeWaits s b m = false

end Sys2Proof.Says

/-- R302, R303: the store to the last word of a ladle slot submits its eight words, where the ladle queue has an entry that
no group which stalled before waits for; else the group stalls and the queue stands. -/
def Sys2Proof.Says.LadleSubmission : Prop :=
  ∀ (s : State) (c k : Nat) (v : Dword), c < 256 → k < 48 →
    (mayTake (coreOf s c).ladleStall k (ladleRoom (coreOf s c)) = true →
      ∃ t l, Runs (.ladleSubmit c k v) s t ∧ (coreOf t c).ladleQ = (coreOf s c).ladleQ ++ [l] ∧
        l.words = (List.range 8).map (fun w => if w = 7 then v else mget (coreOf s c).lslot 0 (8 * k + w)) ∧
        l.order = s.ladleOrder ∧ t.ladleOrder = s.ladleOrder + 1 ∧ l.prev = ladlePrev s (0, 48 * c + k) ∧
        ladlePrev t (0, 48 * c + k) = some l.order ∧
        { t with cores := s.cores, ladleOrder := s.ladleOrder, ladleLast := s.ladleLast } = s) ∧
    (mayTake (coreOf s c).ladleStall k (ladleRoom (coreOf s c)) = false →
      ∃ t, Runs (.ladleSubmit c k v) s t ∧ (coreOf t c).ladleQ = (coreOf s c).ladleQ ∧
        (coreOf t c).fullStall = true ∧ k ∈ (coreOf t c).ladleStall ∧ { t with cores := s.cores } = s)

/-- R301, R587: a free ladle takes a ready command of PRIO 0 before any other, and within a priority the one submitted
first. A sound NVMe command has up to 255 of its NVMe commands under way, in order. -/
def Sys2Proof.Says.LadleAssignment : Prop :=
  ∀ (s : State) (l : Nat), l < 16 → HubRuns s → mget? s.ladles l = none →
    (∃ x ∈ queuedLadles s, ladleReady s x = true) →
    ∃ t x, Runs (.ladleCommandStart l) s t ∧ x ∈ queuedLadles s ∧ ladleReady s x = true ∧
      (∀ y ∈ queuedLadles s, ladleReady s y = true → lPrio y = 0 → lPrio x = 0) ∧
      (∀ y ∈ queuedLadles s, ladleReady s y = true → (lPrio x = 0 → lPrio y = 0) → x.order ≤ y.order) ∧
      (∃ r, mget? t.ladles l = some r ∧ r.cmd = x ∧ r.done = [] ∧ r.due = [] ∧ r.wait = [] ∧ r.fail = ladleBad s x ∧
        r.bytes = 0 ∧
        (lNvme x = false → r.nv = []) ∧
        (lNvme x = true → ladleBad s x = none → r.nv.map Prod.fst = List.range (min 255 (nvmeCount r)))) ∧
      x ∉ queuedLadles t ∧ t.mem = s.mem

/-- R298, R299, R300: a block of FILL and a block of COPY from this module's memory are written whole at the destination;
no other byte changes, and the block counts as done. A byte of a COPY's destination that lies in a source row too is open. -/
def Sys2Proof.Says.LadleBlocks : Prop :=
  ∀ (s : State) (l k : Nat) (r : LadleRun) (d a off n : Nat), BlockDue s l k r d a off n →
    let ends := fun (bs : Bytes) => ∃ t r', Runs (.ladleBlock l k) s t ∧ rdBytes t d n = bs ∧ MemStands s t d n ∧
      mget? t.ladles l = some r' ∧ r'.done = kput r.done k ∧ r'.due = kdel r.due k ∧ r'.fail = none ∧
      r'.bytes = r.bytes + n
    let inSource := fun (x : Nat) => ∃ q, q < lRows r.cmd ∧ rowKey s (lSrc r.cmd) (lSrcStride r.cmd) q ≤ x ∧
      x < rowKey s (lSrc r.cmd) (lSrcStride r.cmd) q + lLen r.cmd
    (lOp r.cmd = 1 → ends ((List.range n).map fun i => BitVec.ofNat 8 (lSrc r.cmd / 256 ^ ((d + i) % 8)))) ∧
    (lOp r.cmd = 0 → isLocal a = true → memCheck s a n = none → asleep s a n = false →
      (isBad s a n = false → ∃ bs : Bytes, bs.length = n ∧ ends bs ∧
        ∀ i, i < n → ¬ inSource (d + i) → bs.getD i 0 = rdByte s (a + i)) ∧
      (isBad s a n = true → ∃ t, Runs (.ladleBlock l k) s t ∧ t.mem = s.mem ∧
        mget? t.ladles l = some { r with fail := some .memPoison }))

/-- R300, R484: a ladle command whose blocks are all written, or that has failed with nothing under way, leaves its
ladle; a program's command adds its bytes to its context and signals its fence with its status. -/
def Sys2Proof.Says.LadleCompletion : Prop :=
  ∀ (s : State) (l : Nat) (r : LadleRun), l < 16 → HubRuns s → mget? s.ladles l = some r → r.due = [] → r.nv = [] →
    (r.fail = none → lNvme r.cmd = false → r.done.length = ladleBlocks s r.cmd) →
    (r.fail = none → lNvme r.cmd = true → nvmeCount r ≤ r.nvNext ∧ r.wait = []) →
    ∃ t, Runs (.ladleComplete l) s t ∧ mget? t.ladles l = none ∧
      (r.cmd.core.isSome = true →
        (∀ k, ctx? s r.cmd.ctx = some k →
          ∃ k', ctx? t r.cmd.ctx = some k' ∧ k'.ladleBytes = k.ladleBytes + BitVec.ofNat 64 r.bytes) ∧
        (∀ f, lFenceEn r.cmd = true → fence? s (fld (lWord r.cmd 6) 15 0) = some f →
          f.gen = BitVec.ofNat 8 (fld (lWord r.cmd 6) 23 16) → f.value.toNat < lWord r.cmd 7 →
          ∃ f', fence? t (fld (lWord r.cmd 6) 15 0) = some f' ∧ f'.value.toNat = lWord r.cmd 7 ∧
            f'.status = r.fail.getD .ok))

/-- Ladle commands: submission, the ladle that takes one, and completion. It concludes a next state of: ladleSubmit,
ladleCommandStart, ladleComplete. -/
def Obligations.LadleCommands : Prop := Says.LadleSubmission ∧ Says.LadleAssignment ∧ Says.LadleCompletion

/-- R307, R585 to R587, R599: an NVMe command that the drive ends with an error, or that a bad packet ends, fails the
ladle's command with MEM_POISON, so does a failed ECRC where the link checks it, and one that has waited RUONG_TMO ticks
fails it with REMOTE_TIMEOUT, not before. A write whose blocks the ladle has read takes them; until then it waits. A read's
data lands at its destination and nowhere else, block by block: some blocks now, which ones is free, the others wait in the
ladle. A link that goes down fails the commands on it that have NVMe commands under way. A drive is enabled in stage 3 of a
cold start or while the rind comes up in a warm start, with its PERST_L high, an admin queue, a queue pair for each ladle and
its namespaces of 512 or 4,096 bytes; another device trains its link, is counted and stays disabled. -/
def Sys2Proof.Says.NvmeCommands : Prop :=
  ∀ (s : State),
    (∀ l i x t0, NvmeWaits s l i x t0 →
      let ended := fun (r : NvmeResult) (st : Option Status) (t : State) => Runs (.nvmeCommandComplete l { cmd := i, result := r }) s t ∧
        t.mem = s.mem ∧ ∃ y, mget? t.ladles l = some y ∧ y.fail = st ∧ y.cmd = x.cmd ∧ ∀ q ∈ y.nv, q ∈ x.nv → q.1 ≠ i
      (∀ r ∈ [NvmeResult.error, .tlp], ∃ t, ended r (some .memPoison) t) ∧
      ((mget s.pcies {} (lNsid x.cmd / 64)).ecrc = true → ∃ t, ended .ecrc (some .memPoison) t) ∧
      ((mget s.pcies {} (lNsid x.cmd / 64)).ecrc = false → Runs (.nvmeCommandComplete l { cmd := i, result := .ecrc }) s s) ∧
      (s.fab.tmo.toNat ≤ (now s + 2 ^ 64 - t0 % 2 ^ 64) % 2 ^ 64 → ∃ t, ended .timeout (some .remoteTimeout) t) ∧
      ((now s + 2 ^ 64 - t0 % 2 ^ 64) % 2 ^ 64 < s.fab.tmo.toNat → Runs (.nvmeCommandComplete l { cmd := i, result := .timeout }) s s) ∧
      (∀ data ns, lOp x.cmd = 3 → nvmeNs s (lNsid x.cmd) = some ns →
        (nvmeSource s x (nvmePiece x i) = none → Runs (.nvmeCommandComplete l { cmd := i, result := .ok data }) s s) ∧
        ∀ bs, nvmeSource s x (nvmePiece x i) = some bs → ∃ t, ended (.ok data) none t ∧
          .nvmeData (lNsid x.cmd / 64) ns.nsid (nvmeLba x ns.lbaSize i) bs ∈ t.out) ∧
      (∀ data, lOp x.cmd = 2 → x.wait = [] →
        let p := nvmePiece x i
        let a := rowKey s (lDst x.cmd) (lDstStride x.cmd) p.1 + p.2.1
        data.length = p.2.2 → Open s a p.2.2 →
        (∀ b m, a ≤ b → 0 < m → b + m ≤ a + p.2.2 → isLocal b = true ∧ memCheck s b m = none ∧
          ∀ c, x.cmd.core = some c → optHeld s c.1 b m = false) → isLocal a = true →
        ∃ (t : State) (y : LadleRun) (land : Nat → Bool), Runs (.nvmeCommandComplete l { cmd := i, result := .ok data }) s t ∧ MemStands s t a p.2.2 ∧
          (∀ j, j < p.2.2 → rdByte t (a + j) = if land ((a + j) / 64) then data.getD j 0 else rdByte s (a + j)) ∧
          (0 < p.2.2 → ∃ j, j < p.2.2 ∧ land ((a + j) / 64) = true) ∧
          mget? t.ladles l = some y ∧ y.bytes + (y.wait.map fun w => w.2.2.length).sum = x.bytes + p.2.2 ∧
          y.wait.map (fun w => w.2) =
            ((writeBlocks a data).filter fun w => !land (w.addr / 64)).map fun w => (w.addr, w.data))) ∧
    (∀ l, l < 4 → HubRuns s → ∃ t, Runs (.pcieLinkDown l) s t ∧ (mget t.pcies {} l).down = true ∧ (mget t.pcies {} l).speed = 0 ∧
      (∀ i x, i < 16 → mget? s.ladles i = some x → lNvme x.cmd = true → x.nv ≠ [] → x.fail = none →
        lNsid x.cmd / 64 = l → ∃ y, mget? t.ladles i = some y ∧ y.fail = some .remoteTimeout ∧ y.nv = []) ∧
      t.mem = s.mem) ∧
    ∀ l d, l < 4 → RindRuns s → s.start.mode = .normal →
      ((s.start.warm = false ∧ s.start.stage = 3) ∨ (s.start.warm = true ∧ s.start.stage = 2)) →
      (mget s.pcies {} l).down = false → (mget s.pcies {} l).speed = 0 →
      ∃ t, Runs (.nvmeEnable l d) s t ∧ { t with pcies := s.pcies, out := s.out } = s ∧
        (mget t.pcies {} l).perstLow = false ∧ (mget t.pcies {} l).speed ≠ 0 ∧
        (d.isNvme = true → (mget t.pcies {} l).nvme = true ∧ (mget t.pcies {} l).admin = true ∧
          (mget t.pcies {} l).pairs.length = 16 ∧ (mget t.pcies {} l).mdts = d.mdts ∧ (mget t.pcies {} l).ns.length ≤ 64 ∧
          ∀ x ∈ (mget t.pcies {} l).ns, x ∈ d.namespaces ∧ (x.lbaSize = 512 ∨ x.lbaSize = 4096)) ∧
        (d.isNvme = false → (mget t.pcies {} l).nvme = (mget s.pcies {} l).nvme ∧
          (mget t.pcies {} l).disabled = (mget s.pcies {} l).disabled + 1) ∧
        ∀ m, m ≠ l → mget t.pcies {} m = mget s.pcies {} m

/-- What a block of a ladle command moves, and an NVMe command. It concludes a next state of: ladleBlock,
nvmeCommandComplete, pcieLinkDown, nvmeEnable. -/
def Obligations.LadleTransfers : Prop := Says.LadleBlocks ∧ Says.NvmeCommands

/-- R283, R297: a cave channel parks when it is trained, may park and no access has asked for it, and wakes when one has;
the patrol scrub counts a corrected word as MEM_CE and leaves an uncorrectable one poisoned and reported as MEM_UE. It
concludes a next state of: cavePark, caveWake, patrolScrub. -/
def Obligations.MemoryControllers : Prop :=
  ∀ (s : State) (ch : Nat), ch < 16 →
    (s.memCtl.parkEn = true → s.start.caveUp.getLsbD ch = true → s.memCtl.wakes.getLsbD ch = false →
      ∃ t, Runs (.cavePark ch) s t ∧ t = { s with memCtl := { s.memCtl with parked := t.memCtl.parked } } ∧
        ∀ n, n < 16 → t.memCtl.parked.getLsbD n = (s.memCtl.parked.getLsbD n || decide (n = ch))) ∧
    (s.memCtl.wakes.getLsbD ch = true →
      ∃ t, Runs (.caveWake ch) s t ∧ t.memCtl.wakes.getLsbD ch = false ∧
        (∀ n, n < 16 → t.memCtl.parked.getLsbD n = (s.memCtl.parked.getLsbD n && decide (n ≠ ch))) ∧
        (s.turn.held = [] →
          t = { s with memCtl := { s.memCtl with parked := t.memCtl.parked, wakes := t.memCtl.wakes } } ∧
          ∀ n, n < 16 → t.memCtl.wakes.getLsbD n = (s.memCtl.wakes.getLsbD n && decide (n ≠ ch)))) ∧
    (∀ a, HubRuns s → (regionOf a = .hbm ∨ regionOf a = .cave) → s.memCtl.scrubEn = true → inService s a = true →
      Runs (.patrolScrub a .clean) s s ∧
      (∃ t f, Runs (.patrolScrub a .corrected) s t ∧ f.cls = 1 ∧ f.d0 = BitVec.ofNat 64 a ∧ t = attn s f) ∧
      ∃ t f, Runs (.patrolScrub a .uncorrectable) s t ∧ f.cls = 2 ∧ f.d0 = BitVec.ofNat 64 a ∧ isBad t a 1 = true ∧
        t = attn { s with bad := t.bad } f)

/-- R256, R266, R267, R269, R270: the earliest due regeneration runs in full service over every record of its table and
then counts in QW_STAT[15:0], at once unless a switch waits for its bank. A record that cannot be regenerated only
gets LAST 2 and the FAIL bit. A record whose assisted check fails gets LAST 3 and FAIL; one whose check passes
switches its bank and counts its VERSION up, once every write into the bank is performed. It concludes a next state
of: qwRegenerate, regenCheckDone. -/
def Obligations.Regeneration : Prop :=
  ∀ (s : State), HubRuns s → s.qw.switches = [] →
    (s.qw.due = [] → Runs .qwRegenerate s s) ∧
    (∀ step rest, s.qw.due = step :: rest → fullService s = true → s.qw.checks = [] → dutyMode s 6 = 0 →
      ∃ t, Runs .qwRegenerate s t ∧ t.qw.due = rest ∧
        (t.qw.switches = [] → fld t.qw.stat.toNat 15 0 = (fld s.qw.stat.toNat 15 0 + 1) % 2 ^ 16) ∧
        (t.qw.switches ≠ [] → fld t.qw.stat.toNat 15 0 = fld s.qw.stat.toNat 15 0) ∧
        (fld s.qw.tblCnt.toNat 12 0 = 1 → (qwRec s 0).shapeOk = false → Open s s.qw.tblBase.toNat 64 → s.turn.held = [] →
          rdNum t (s.qw.tblBase.toNat + 0x3B) 1 = 2 ∧ t.qw.stat.getLsbD 23 = true ∧
          MemStands s t (s.qw.tblBase.toNat + 0x3B) 1)) ∧
    ∀ r pass code, mget? s.qw.checks r = some (pass, code) → Open s (s.qw.tblBase.toNat + 64 * r) 64 →
      let a := s.qw.tblBase.toNat + 64 * r
      ∃ t, Runs (.regenCheckDone r) s t ∧ MemStands s t a 64 ∧
        (pass = false → rdNum t (a + 0x3B) 1 = 3 ∧ t.qw.stat.getLsbD 23 = true ∧ MemStands s t (a + 0x3B) 1) ∧
        (pass = true → bankPending s (qwRec s r) = true → mget? t.qw.switches r = some code ∧ t.mem = s.mem) ∧
        (pass = true → bankPending s (qwRec s r) = false →
          rdNum t (a + 0x30) 8 = rdNum s (a + 0x30) 8 ^^^ 2 ^ 63 ∧ rdNum t (a + 0x3A) 1 = 0 ∧
          rdNum t (a + 0x3B) 1 = code % 256 ∧ rdNum t (a + 0x3C) 4 = (rdNum s (a + 0x3C) 4 + 1) % 2 ^ 32)

/-- R421 to R423, R438: a FORWARD mark of the next step begins the step with its culture snapshot and cleared ticks, a
mark of the step in hand sets the phase, any other mark sets BAD_MARK (bit 10) and leaves the page; a SHARD_PTR store
appends one entry to the log record that is being made. -/
def Sys2Proof.Says.PhaseMarks : Prop :=
  ∀ (s : State) (c : Nat) (v : Dword), c < 256 →
    let k := coreOf s c
    let step := fld v.toNat 63 16
    let q := fld v.toNat 2 0
    (k.phase.held = none → (∀ e ∈ wheyHeld k, isJobCtx s e.ctx = false) → remapDue k = false → k.test = none →
      (q = 1 → (k.phase.cur = none ∨ ∃ o ph, k.phase.cur = some (o, ph) ∧ step = o + 1) → turnHolds s step = false →
        ∃ t, Runs (.phaseSet c v) s t ∧ (coreOf t c).phase.cur = some (step, 1) ∧ (coreOf t c).phase.fwd = some step ∧
          (coreOf t c).phase.ticks = [] ∧
          mget? (coreOf t c).phase.snaps step = some (k.whey.seed, k.whey.ctr)) ∧
      (∀ o ph, q ≠ 7 → k.phase.cur = some (o, ph) → step = o →
        Runs (.phaseSet c v) s (modPhase s c fun p => { p with cur := some (step, q) })) ∧
      (q = 7 ∨ (k.phase.cur = none ∧ q ≠ 1) ∨
          (∃ o ph, k.phase.cur = some (o, ph) ∧ step ≠ o ∧ (step = o + 1 → q ≠ 1)) →
        ∃ t, Runs (.phaseSet c v) s t ∧ t = { s with turn := { s.turn with stat := t.turn.stat } } ∧
          t.turn.stat.getLsbD 10 = true)) ∧
    ∀ o ph, k.phase.cur = some (o, ph) → rlogHas s o = true → rlogComplete s o = false →
      0x22000 + 32 * (rlogCount s o + 1) ≤ rlogSize s →
      ∃ t, Runs (.shardPtr c v) s t ∧ rlogCount t o = (rlogCount s o + 1) % 2 ^ 32 ∧
        hubNum t (rlogAt s o + 0x22000 + 32 * rlogCount s o) 8 = 2 ^ 56 + c ∧
        hubNum t (rlogAt s o + 0x22000 + 32 * rlogCount s o + 8) 8 = v.toNat

/-- R425, R427, R428, R431, R462: the turning point of a step is performed when its conditions hold: it is the latest one,
its hub count is cleared, a due regeneration is noted, and a due turning of the step has begun or, with nothing to copy, is
complete. While an earlier turning is still copied, a due one waits and HELD (bit 11) is set. -/
def Sys2Proof.Says.TurningPoints : Prop :=
  ∀ (s : State) (step : Nat), HubRuns s → nextPoint s = some step →
    (turnDue s step = true → s.turn.run.isSome = true → Runs .turningPoint s (turnFlag s 11)) ∧
    ((turnDue s step = true → s.turn.run = none ∧ anyAsleep s (slotParts s (lastSlot s)) = false) →
      ∃ t, Runs .turningPoint s t ∧ t.turn.lastPoint = some step ∧ t.turn.hubTurning = 0 ∧
        (s.qw.ctl.getLsbD 31 = true → fullService s = true → step % fld s.qw.ctl.toNat 15 0 = 0 →
          t.qw.due = s.qw.due ++ [step]) ∧
        (turnDue s step = false → t.turn.run.map (fun r => (r.step, r.done)) = s.turn.run.map fun r => (r.step, r.done)) ∧
        (turnDue s step = true →
          (∃ r, t.turn.run = some r ∧ r.step = step) ∨ fld t.turn.stat.toNat 63 16 = step % 2 ^ 48))

/-- Phase marks, and the turning points that they bring about. It concludes a next state of: phaseSet, shardPtr,
turningPoint. -/
def Obligations.PhaseMarksAndTurningPoints : Prop := Says.PhaseMarks ∧ Says.TurningPoints

/-- R431, R432, R435, R462: a granule that a turning has in hand is copied into its slot, byte for byte, and, where no
bucket step waits for it, no other byte of memory changes; a mirror whose writes are all complete sets MIRRORED beside
VALID, and MIRROR_OK (bit 12) where its turning is the latest complete one and in the slot of it. It concludes a next
state of: turningGranule, mirrorComplete. -/
def Obligations.TurningCopies : Prop :=
  ∀ (s : State), s.memOk → HubRuns s →
    (∀ r n a, s.turn.run = some r → r.todo = [] → turnLadle s = true → s.hoop.steps = [] → n ∈ granuleOrder s r → n ∉ r.done → r.done.length + 1 < r.total → n < r.total →
      granuleAddr (turnRegions s) n = some a → isBad s a 0x40000 = false → asleep s a 0x40000 = false →
      asleep s (slotGranule s r.slot n) 0x40000 = false → s.turn.held = [] →
      ∃ t r', Runs (.turningGranule n) s t ∧ t.turn.run = some r' ∧ r'.done = kput r.done n ∧
        (∀ i, i < 0x40000 → rdByte t (slotGranule s r.slot n + i) = rdByte s (a + i)) ∧
        MemStands s t (slotGranule s r.slot n) 0x40000) ∧
    ∀ m, s.turn.mirror.find? (fun m => m.due == 0) = some m →
      ∃ t, Runs .mirrorComplete s t ∧ t.turn.mirror = s.turn.mirror.erase m ∧
        t.turn.stat.getLsbD 12 = (s.turn.stat.getLsbD 12 || decide (lastStep s = m.step ∧ lastSlot s = m.slot)) ∧
        hubNum t (slotBase s m.slot) 8 = m.step % 2 ^ 48 * 2 ^ 16 + 3

/-- R457, R459, R464: a segment replay is taken only where none runs on the core; without a valid record it ends with LAST
2, and with one it draws from the culture snapshot of the record. -/
def Sys2Proof.Says.SegmentReplays : Prop :=
  ∀ (s : State) (c : Nat) (v : Dword), c < 256 →
    let k := coreOf s c
    let id := fld v.toNat 7 0
    (segBusy k = true → Runs (.segReplay c v) s s) ∧
    (segBusy k = false → anyAsleep s (segParts s c id) = false →
      (bitOf (rdNum s (segBase k + 16 * id + 8) 8) 0 = false →
        Runs (.segReplay c v) s
          (modPhase s c fun p => { p with segLastId := id, segLast := 2, segRefusal := 0, segLeft := none })) ∧
      (bitOf (rdNum s (segBase k + 16 * id + 8) 8) 0 = true →
        ∃ t, Runs (.segReplay c v) s t ∧ (coreOf t c).phase.segLastId = id ∧
          let snap := snapOf (rdBytes s (segBase k + rdNum s (segBase k + 16 * id) 4 - 520) 520)
          (coreOf t c).whey.rseed = snap.1 ∧ (coreOf t c).whey.rctr = snap.2))

/-- R18, R94, R184, R294, R453: a quiet core that is to be moved at its held mark takes the lowest spare physical core of
its vat, with an empty L1, its counts and RETIRE_PEND clear, and its context goes on; a retired physical core stays out
of service. Without a spare, and with none under test, the retired core is marked failed and the module is unfit. -/
def Sys2Proof.Says.CoreRemap : Prop :=
  ∀ (s : State) (c : Nat), c < 256 → RindRuns s → (coreOf s c).phase.held.isSome = true → remapDue (coreOf s c) = true →
    quiet (coreOf s c) = true →
    (∀ p, spareCore s (c / 64) = some p →
      ∃ t, Runs (.coreRemap c) s t ∧ physOf t c = 66 * (c / 64) + p ∧ (coreOf t c).l1 = [] ∧
        (coreOf t c).press.stat.getLsbD 6 = false ∧ (coreOf t c).whey.stat.getLsbD 7 = false ∧
        (coreOf t c).stopped = false ∧ (coreOf t c).issueCnt = (mget s.physCnt (0, 0) (66 * (c / 64) + p)).1 ∧
        (coreOf t c).resCnt = (mget s.physCnt (0, 0) (66 * (c / 64) + p)).2 ∧
        (∀ d, d ≠ c → d < 256 → physOf t d = physOf s d) ∧
        (retirePend (coreOf s c) = true → physOf s c ∈ t.vatFail)) ∧
    (spareCore s (c / 64) = none → retirePend (coreOf s c) = true → testOpen s (c / 64) = false →
      ∃ t, Runs (.coreRemap c) s t ∧ physOf s c ∈ t.vatFail ∧ t.triage.unfit = true)

/-- Segment replays, and a core moved to a spare. It concludes a next state of: segReplay, coreRemap. -/
def Obligations.SegmentsAndRemaps : Prop := Says.SegmentReplays ∧ Says.CoreRemap

/-! ## Ruong, requests of other modules, and the coordinator pair -/

namespace Sys2Proof.Says

/-- The oldest flit of a virtual channel of a port has left its buffer. -/
def Taken (s t : State) (p vc : Nat) : Prop :=
  ∃ i, vcHead s p vc = some i ∧ (portOf t p).ingress = (portOf s p).ingress.erase i

/-- A packet goes out by a port: a flit of it waits or has been sent and is not acknowledged. -/
def GoesOut (t : State) (p : Nat) (k : Packet) : Prop := ∃ f ∈ (portOf t p).txq ++ (portOf t p).retry, f.pkt = k

/-- A flit received on an ACTIVE port is a numbered packet flit in sequence: it is intact, of KIND `kind`, carries no
NAK and has the expected SEQ, and its packet has not crossed 63 links (R338, R343, R356). -/
structure InSequence (s : State) (p kind : Nat) (f : RawFlit) : Prop where
  port : p < 12
  intact : flitOk (portOf s p) f = true
  active : (portOf s p).state = 5
  is : flitKind f = kind
  plain : bitOf (flitLink f) 50 = false
  next : flitSeq f = (portOf s p).rxSeq
  room : vcFull s p (flitVc f) = false
  hops : (packetOf f.bytes).hops ≠ 63

/-- A request of another module stands at the head of a virtual channel: it passes the membership test, is not in the
control class, and waits for no held release of its flow (R322, R354). -/
structure Request (s : State) (p vc opc : Nat) (k : Packet) : Prop where
  port : p < 12
  hub : HubRuns s
  head : homeHead s p vc = some k
  is : k.opc = opc
  member : admitted s k = true
  data : k.tc ≠ 2
  free : behindHeld s k = false
  first : k.rel = false ∨ earlierWrites s p vc k = []

/-- A response with operation `opc` and status `aux` to a packet enters the injection queue. -/
def Responds (s t : State) (k : Packet) (opc aux : Nat) (body : Bytes) : Prop :=
  ∃ r, t.fab.inj = s.fab.inj ++ [r] ∧ r.opc = opc ∧ r.aux = aux ∧ r.dst = k.src ∧ r.tag = k.tag ∧ r.tc = k.tc ∧ r.body = body

/-- A response at the head of a virtual channel answers an outstanding tag (R366). -/
structure Response (s : State) (p vc opc : Nat) (k : Packet) (r : TagRec) : Prop where
  port : p < 12
  hub : HubRuns s
  head : homeHead s p vc = some k
  is : k.opc = opc
  live : liveTag s k.tag = some r

/-- A tag is free again, unless a request that waited for one has taken it (R366). -/
def Freed (s t : State) (tag : Nat) : Prop := s.fab.tagWait = [] → mget? t.fab.tags tag = none

/-- A mailbox message of a TYPE stands at the head of a virtual channel of a module in a job (R440, R441). -/
structure Mail (s : State) (p vc ty : Nat) (k : Packet) : Prop where
  port : p < 13
  clock : RindRuns s
  head : homeHead s p vc = some k
  opc : k.opc = 8
  tc : k.tc = 2
  is : mType k.body = ty
  job : s.obj.job.isSome = true

/-- A mailbox message of a TYPE to a node has gone out, or to this module's own rind (R440). -/
def Mailed (t : State) (node ty : Nat) : Prop :=
  (∃ k ∈ t.fab.inj, k.dst = node ∧ k.opc = 8 ∧ k.tc = 2 ∧ mType k.body = ty) ∨
    ∃ i ∈ (portOf t 12).ingress, i.pkt.dst = node ∧ i.pkt.opc = 8 ∧ mType i.pkt.body = ty

/-- A decision whose one part is a message body (R441). -/
def decisionOf (src : Nat) (b : Bytes) : Decision :=
  { epoch := mEpoch b, dseq := mDseq b, flags := mCode b, step := mStep b, base := mBase b, ents := mEnts b, node := src }

/-- The last thing that went out is a flit on a port with NAK set (R338, R343). -/
def Asks (t : State) (p : Nat) : Prop := ∃ b, t.out.getLast? = some (.flit p b) ∧ bitOf (wordAt b 0) 50 = true

/-- The decision in hand. -/
def inHand (s : State) : Option Decision := s.turn.decide.map fun d => d.1

end Sys2Proof.Says

/-- R338, R341, R343, R345: an intact packet flit with the expected SEQ enters the ingress buffer of its virtual channel
and moves the expected SEQ on; one with another SEQ, and one whose CRC fails, is discarded, and the first discard asks for
a resend. A CRC failure is counted in CRC_ERR. -/
def Sys2Proof.Says.FlitReceipt : Prop :=
  ∀ (s : State) (p : Nat) (f : RawFlit),
    (InSequence s p 1 f → ∃ t, Runs (.flitReceive p f) s t ∧ (portOf t p).rxSeq = (flitSeq f + 1) % 4096 ∧
      (portOf t p).ingress = (portOf s p).ingress ++ [{ pkt := packetOf f.bytes, vc := flitVc f, tick := now s }] ∧
      t.mem = s.mem) ∧
    (p < 12 → flitOk (portOf s p) f = true → (portOf s p).state = 5 → flitKind f = 1 →
      bitOf (flitLink f) 50 = false → flitSeq f ≠ (portOf s p).rxSeq →
      ∃ t, Runs (.flitReceive p f) s t ∧ (portOf t p).rxSeq = (portOf s p).rxSeq ∧ (portOf t p).disc = true ∧
        (portOf t p).ingress = (portOf s p).ingress ∧ ((portOf s p).disc = false → Asks t p)) ∧
    (p < 12 → receives s p = true → flitOk (portOf s p) f = false →
      ∃ t, Runs (.flitReceive p f) s t ∧ (portOf t p).rxSeq = (portOf s p).rxSeq ∧
        (portOf t p).ingress = (portOf s p).ingress ∧
        fld (portOf t p).perr.toNat 47 32 = min (fld (portOf s p).perr.toNat 47 32 + 1) 65535 ∧
        ((portOf s p).state = 5 → (portOf t p).disc = true ∧ ((portOf s p).disc = false → Asks t p)))

/-- R344, R351, R370: a FAILOVER flit whose original SEQ lies within 1,024 of the last one of its own port is accepted; a
TRAIN flit on an ACTIVE port puts it into IDENTIFY with an empty retry buffer; after a timeout without acknowledgement the
retry buffer is sent again, and the ninth time of a flit is a link fault that retrains from EQUALIZE. -/
def Sys2Proof.Says.LinkFailures : Prop :=
  ∀ (s : State) (p : Nat),
    (∀ f, InSequence s p 2 f → origOk p (fld (flitLink f) 5 2) = true →
      let own := joinedPort (fld (flitLink f) 5 2)
      own ≠ p → subMod 12 (fld (flitLink f) 17 6) ((portOf s own).last + 1) < 1024 →
      ∃ t, Runs (.failoverFlit p f) s t ∧ (portOf t own).last = fld (flitLink f) 17 6 ∧
        (portOf t p).ingress = (portOf s p).ingress ++ [{ pkt := packetOf f.bytes, vc := flitVc f, tick := now s }]) ∧
    (∀ f, p < 12 → flitOk (portOf s p) f = true → flitKind f = 3 → (portOf s p).state = 5 →
      ∃ t, Runs (.trainFlit p f) s t ∧ (portOf t p).state = 4 ∧ (portOf t p).warmHold = true ∧
        (portOf t p).retry = []) ∧
    (p < 12 → (portOf s p).state = 5 → (portOf s p).retry ≠ [] → (∀ f ∈ (portOf s p).retry, f.resends < 8) →
      (tally s (countKey 4 p) (portOf s p).retry.length 65536).2 = false →
      ∃ t, Runs (.linkRetryTimeout p) s t ∧
        (portOf t p).retry = ((portOf s p).retry.map fun f => { f with resends := f.resends + 1 }) ∧
        t.out.length = s.out.length + (portOf s p).retry.length) ∧
    (p < 12 → (portOf s p).state = 5 → (∃ f ∈ (portOf s p).retry, 8 ≤ f.resends) →
      ∃ t, Runs (.linkRetryTimeout p) s t ∧ (portOf t p).state = 2)

/-- Flits that a port receives, and the failures of a link. It concludes a next state of: flitReceive, failoverFlit,
trainFlit, linkRetryTimeout. -/
def Obligations.Links : Prop := Says.FlitReceipt ∧ Says.LinkFailures

/-- R345, R352, R355, R356, R359, R360, R553: a transit packet leaves its buffer and goes out by the port of its next hop
where it can leave that port at once, and else stays; one whose destination is dead is dropped as unreachable; one
whose buffer shows a double-bit error or that has waited too long is dropped, and an injected packet takes its detours
and its port; one without a usable path is counted as unreachable. -/
def Sys2Proof.Says.PacketsMove : Prop :=
  ∀ (s : State) (p vc : Nat), p < 12 → HubRuns s →
    (∀ i, vcHead s p vc = some i →
      (∃ t, Runs (.transitForward p vc true) s t ∧ Taken s t p vc) ∧
      (isTransit s i.pkt = true → nodeDead s (physNode s i.pkt.dst) = true →
        ∃ t, Runs (.transitForward p vc false) s t ∧ Taken s t p vc ∧
          fld t.fab.drop.toNat 15 0 = min (fld s.fab.drop.toNat 15 0 + 1) 65535) ∧
      (∀ d neg side k e x, isTransit s i.pkt = true → inTorus s (physNode s i.pkt.dst) = true →
        nodeDead s (physNode s i.pkt.dst) = false → hopOf s i.pkt = some (d, neg, side, k) →
        egressPort s (dirCode d neg) i.pkt = some e → x = { k with hops := min 63 (k.hops + 1) } →
        let o := vcOf x (dlNext s i.pkt (some (portDim p, bitOf vc 0)) d neg side)
        (canLeave s e o = true → ∃ t, Runs (.transitForward p vc false) s t ∧ Taken s t p vc ∧ GoesOut t e x) ∧
        (canLeave s e o = false → Runs (.transitForward p vc false) s s))) ∧
    (∀ i, oldestTransit s p vc = some i → s.fab.tmo.toNat / 64 < subMod 64 (now s) i.tick →
      ∃ t, Runs (.transitHoldExpiry p vc) s t ∧ (portOf t p).ingress = (portOf s p).ingress.erase i ∧
        fld t.fab.drop.toNat 63 32 = min (fld s.fab.drop.toNat 63 32 + 1) (2 ^ 32 - 1)) ∧
    ∀ k, s.fab.inj.find? (mayInject s) = some k →
      (∀ d0 d1 d neg side k' e, routeOf s k.dst = some (d0, d1) →
        hopOf s { k with dtr0 := d0, dtr1 := d1 } = some (d, neg, side, k') →
        egressPort s (dirCode d neg) { k with dtr0 := d0, dtr1 := d1 } = some e →
        ∃ t, Runs .packetInject s t ∧ t.fab.inj = s.fab.inj.erase k ∧
          GoesOut t e { k' with hops := min 63 (k'.hops + 1) }) ∧
      (routeOf s k.dst = none → ∃ t, Runs .packetInject s t ∧
        fld t.fab.drop.toNat 15 0 = min (fld s.fab.drop.toNat 15 0 + 1) 65535)

/-- R363, R364, R387: an ordered epoch change stops injection, its tables come into force once every request is complete,
with the ring registers of a join record, and the route cache ends the wait for it: the rind's, or the client's once its
fence is signalled, of which the rind replaces every entry that R359 does not give. -/
def Sys2Proof.Says.EpochChanges : Prop :=
  ∀ (s : State), RindRuns s →
    (∀ x, s.fab.change = some x → Runs .routeDrain s (modFab s fun f => { f with change := none, drain := some x })) ∧
    (∀ x, s.fab.drain = some x →
      (drained s = false → Runs .routeTableLoad s s) ∧
      (drained s = true → ∃ t, Runs .routeTableLoad s t ∧ t.fab.fmap = x.fmap ∧ t.fab.aliases = x.aliases ∧
        t.fab.epoch = x.epoch ∧ t.fab.drain = none ∧ t.fab.cacheWait = (dutyMode s 3 != 0) ∧
        ∀ g n q, x.ring = some (g, n, q) →
          t.hoop.grid = g ∧ t.hoop.next = n ∧ t.hoop.prev = q ∧ t.hoop.ctl.getLsbD 31 = true)) ∧
    (s.fab.cacheWait = true →
      let cached := ∃ t, Runs (.routeCacheReady (cacheSource s)) s t ∧ t.fab.cacheWait = false ∧
        (∀ n, n < 16384 → inTorus s n = true → mget t.fab.rcache 0 n = routeEntry s n) ∧
        (dutyMode s 3 = 2 → ∀ n, n < 16384 → inTorus s n = true → clientEntry s n ≠ routeEntry s n →
          t.dutyFb.getLsbD 3 = true)
      (dutyMode s 3 ≠ 2 → cached) ∧
      (dutyMode s 3 = 2 → controllerGone s = false → postDone s 3 = true → cached) ∧
      (dutyMode s 3 = 2 → (controllerGone s = true ∨ postDone s 3 = false) → Runs (.routeCacheReady .client) s s) ∧
      ∀ src, src ≠ cacheSource s → Runs (.routeCacheReady src) s s)

/-- Packets on their way, and a change of the membership epoch. It concludes a next state of: packetInject,
transitForward, transitHoldExpiry, routeDrain, routeTableLoad, routeCacheReady. -/
def Obligations.RoutingAndEpochs : Prop := Says.PacketsMove ∧ Says.EpochChanges

/-- R26, R345, R367 to R370, R378: the training states of an enabled port in their order, once the module drives its
connectors, with SEQ reset on the way to ACTIVE and the refusal of a wrong neighbour; the limit of a state, after
which the third attempt in a row ends in FAILED; and RETRAIN, which a port that cannot train yet keeps. It concludes a
next state of: linkTrainStateDone, trainLimitExpiry, retrain. -/
def Obligations.LinkTraining : Prop :=
  ∀ (s : State) (p : Nat) (x : TrainInfo), p < 12 →
    (driving s = false → Runs (.linkTrainStateDone p x) s s) ∧
    ((portOf s p).en = true → driving s = true →
      ((portOf s p).state = 1 → ∃ t, Runs (.linkTrainStateDone p x) s t ∧ (portOf t p).state = 2) ∧
      ((portOf s p).state = 2 → x.lowOk = true → x.highOk = true →
        ∃ t, Runs (.linkTrainStateDone p x) s t ∧ (portOf t p).state = 3 ∧ (portOf t p).width = 3) ∧
      ((portOf s p).state = 2 → x.lowOk = false → x.highOk = false → Runs (.linkTrainStateDone p x) s s) ∧
      ((portOf s p).state = 3 → ∃ t, Runs (.linkTrainStateDone p x) s t ∧ (portOf t p).state = 4 ∧
        (portOf t p).reversed = x.reversed ∧ (portOf t p).polinv = x.polinv ∧ .train p (trainId s p) ∈ t.out) ∧
      ((portOf s p).state = 4 → nbrOk s p x = true → ∃ t, Runs (.linkTrainStateDone p x) s t ∧
        (portOf t p).state = 5 ∧ (portOf t p).rxSeq = 0 ∧ ((portOf s p).txq = [] → (portOf t p).txSeq = 0 ∧ (portOf t p).retry = []) ∧
        (portOf t p).nbrNode = BitVec.ofNat 16 x.nbr.node) ∧
      ((portOf s p).state = 4 → nbrOk s p x = false → ∃ t, Runs (.linkTrainStateDone p x) s t ∧
        (portOf t p).state = 6)) ∧
    (1 ≤ (portOf s p).state → (portOf s p).state ≤ 4 →
      trainLimit (portOf s p) < subMod 64 (now s) (portOf s p).since →
      ∃ t, Runs (.trainLimitExpiry p) s t ∧ (portOf t p).tries = (portOf s p).tries + 1 ∧
        (portOf t p).state = if 2 ≤ (portOf s p).tries then 7 else 1) ∧
    ((portOf s p).en = true → driving s = true → ∃ t, Runs (.retrain p) s t ∧
      (portOf t p).state = (if (portOf s p).state = 0 ∨ (portOf s p).state = 7 then 1 else 2) ∧ (portOf t p).retrain = false) ∧
    (((portOf s p).en = false ∨ driving s = false) →
      Runs (.retrain p) s (modPort s p fun q => { q with retrain := true }))

/-- R280, R296, R307, R322, R340: WRITE writes the bytes of its mask and no other byte, block by block: some blocks now,
which ones is free, and with the last one it answers WRITE_CPL. READ_REQ answers the bytes of memory; ATOMIC writes the
result, for combined FADDs that of all their operands in order (R170), and answers the old value; where the bytes are
poisoned, or have an error on their way to the port, the answer is MEM_POISON. A release held here is performed once nothing
before it waits. -/
def Sys2Proof.Says.RemoteRequests : Prop :=
  ∀ (s : State) (k : Packet),
    let base := k.addr / 64 * 64
    let mask := leVal (sliceB k.body 0 24)
    let wrote := fun (t : State) (land : Nat → Bool) =>
      (∀ i, i < 192 → mask.testBit i = true →
        rdByte t (base + i) = if land (i / 64) then k.body.getD (24 + i) 0 else rdByte s (base + i)) ∧
      (∀ b, (∀ i, i < 192 → mask.testBit i = true → b ≠ base + i) → rdByte t b = rdByte s b) ∧
      (maskBlocks k ≠ [] → ∃ b ∈ maskBlocks k, land b = true)
    let left := fun (land : Nat → Bool) => (maskBlocks k).filter fun b => !land b
    let open_ := fun (a n : Nat) => memCheck s a n = none ∧ asleep s a n = false
    let blocks := ∀ b ∈ maskBlocks k, open_ (base + 64 * b) 64 ∧ writeHeld s (base + 64 * b) 64 = false
    (∀ p vc, Request s p vc 1 k → blocks →
      ∃ t land, Runs (.write p vc) s t ∧ wrote t land ∧
        (left land = [] → Taken s t p vc ∧ Responds s t k 6 0 []) ∧
        (left land ≠ [] → homeHead t p vc = some (onlyBlocks k (left land)) ∧ t.fab.inj = s.fab.inj)) ∧
    (∀ p vc, Request s p vc 2 k → 0 < k.len → k.addr % 64 + k.len ≤ 192 → open_ k.addr k.len →
      ∃ t, Runs (.readReq p vc) s t ∧ Taken s t p vc ∧ t.mem = s.mem ∧
        if isBad s k.addr k.len || (portOf s p).upset.contains vc then Responds s t k 7 0x23 []
        else Responds s t k 3 0 (writeBody (k.addr % 64) (rdBytes s k.addr k.len))) ∧
    (∀ p vc, Request s p vc 4 k →
      let n := if k.aux % 2 = 1 then 8 else 4
      let old := rdNum s k.addr n
      k.aux / 2 ≤ 10 → k.aux ≠ 3 → open_ k.addr n → writeHeld s k.addr n = false →
      (isBad s k.addr n = true →
        ∃ t, Runs (.atomic p vc) s t ∧ Taken s t p vc ∧ t.mem = s.mem ∧ Responds s t k 7 0x23 []) ∧
      (isBad s k.addr n = false → ∃ t, Runs (.atomic p vc) s t ∧ Taken s t p vc ∧ MemStands s t k.addr n ∧
        rdNum t k.addr n =
          (atomMore k).foldl (fun v b => atomNew (k.aux / 2) (8 * n) v b 0)
            (atomNew (k.aux / 2) (8 * n) old (leVal (sliceB k.body 24 n)) (leVal (sliceB k.body 32 n))) % 256 ^ n ∧
        if (portOf s p).upset.contains vc then Responds s t k 7 0x23 []
        else Responds s t k 5 0 (writeBody 0 (leBytes 8 old)))) ∧
    ∀ j before, HubRuns s → s.fab.held[j]? = some (k, before) → k.opc = 1 →
      (∀ kv ∈ s.ports, ∀ i ∈ kv.2.ingress, i.pkt ∉ before) → blocks →
      ∃ t land, Runs (.remoteReleasePerform j) s t ∧ wrote t land ∧
        (left land = [] → Responds s t k 6 0 [] ∧ t.fab.held = s.fab.held.erase (k, before)) ∧
        (left land ≠ [] → t.fab.held = lset s.fab.held j (onlyBlocks k (left land), before) ∧ t.fab.inj = s.fab.inj)

/-- R30, R340, R354: a request that fails the membership test is counted and answered ADDRESS_FAULT (0x20), and so is one of which a
block is in no memory; nothing is written. -/
def Sys2Proof.Says.RemoteRequestsRefused : Prop :=
  ∀ (s : State) (p vc : Nat) (k : Packet), p < 12 → HubRuns s → homeHead s p vc = some k →
    ∀ op ∈ [(Instr.write, 1), (.readReq, 2), (.atomic, 4)], k.opc = op.2 →
      (admitted s k = false →
        ∃ t, Runs (op.1 p vc) s t ∧ Taken s t p vc ∧ t.mem = s.mem ∧ Responds s t k 7 0x20 [] ∧
          t.fab.refused = s.fab.refused + 1) ∧
      (Request s p vc op.2 k →
        (op.2 = 1 → (∃ b ∈ maskBlocks k, regionOf (k.addr / 64 * 64 + 64 * b) = .unmapped) ∧
          ∀ b ∈ maskBlocks k, regionOf (k.addr / 64 * 64 + 64 * b) = .unmapped ∨ memCheck s (k.addr / 64 * 64 + 64 * b) 64 = none) →
        (op.2 = 2 → 0 < k.len ∧ k.addr % 64 + k.len ≤ 192 ∧ regionOf k.addr = .unmapped) →
        (op.2 = 4 → k.aux / 2 ≤ 10 ∧ k.aux ≠ 3 ∧ regionOf k.addr = .unmapped) →
        ∃ t, Runs (op.1 p vc) s t ∧ Taken s t p vc ∧ t.mem = s.mem ∧ Responds s t k 7 0x20 [])

/-- R321, R340, R365, R366: a response frees its tag: data goes to the load that waits for it, an old value to its atomic,
a completion counts a block of a ladle as written, and an error fails it. A response without an outstanding tag is
discarded and counted in STALE. A request without a response in time is given up with its tag held back, which ends after
as long again; a request that waits for a tag then goes out. -/
def Sys2Proof.Says.Responses : Prop :=
  ∀ (s : State) (p vc : Nat) (k : Packet) (r : TagRec),
    (Response s p vc 3 k r → ∀ c n lanes a, r.use = .load c n lanes none → findAcc s c n = some a →
      ∃ t b, Runs (.readRsp p vc) s t ∧ Taken s t p vc ∧ Freed s t k.tag ∧ findAcc t c n = some b ∧
        b.due = a.due - 1 ∧ t.mem = s.mem ∧
        b.lanes = a.lanes.map fun o =>
          if o.lane ∈ lanes then
            { o with got := some (leVal (sliceB k.body (24 + ((remoteOf o.addr).2 - k.addr / 64 * 64)) a.width)) }
          else o) ∧
    (Response s p vc 5 k r → ∀ c n o a, r.use = .atom c n o.lane → findAcc s c n = some a → a.lanes = [o] →
      o.got = none →
      ∃ t b, Runs (.atomicRsp p vc) s t ∧ Taken s t p vc ∧ Freed s t k.tag ∧ findAcc t c n = some b ∧
        b.due = a.due - 1 ∧ b.lanes = [{ o with got := some (leVal (sliceB k.body 24 a.width)) }] ∧ t.mem = s.mem) ∧
    (Response s p vc 6 k r → ∀ l b x, r.use = .ladleWrite l b → mget? s.ladles l = some x →
      ∃ t, Runs (.writeCpl p vc) s t ∧ Taken s t p vc ∧ Freed s t k.tag ∧ t.mem = s.mem ∧
        mget? t.ladles l = some { x with done := kput x.done b, due := kdel x.due b }) ∧
    (Response s p vc 7 k r → k.tag ≠ noTag → ∀ l b x, (r.use = .ladleWrite l b ∨ r.use = .ladleRead l b) → mget? s.ladles l = some x →
      ∃ t, Runs (.errorRsp p vc) s t ∧ Taken s t p vc ∧ Freed s t k.tag ∧ t.mem = s.mem ∧
        mget? t.ladles l =
          some { x with due := kdel x.due b, fail := some (x.fail.getD (Status.ofCode k.aux)) }) ∧
    (p < 12 → HubRuns s → homeHead s p vc = some k → liveTag s k.tag = none →
      ∀ op ∈ [(Instr.readRsp, 3), (.atomicRsp, 5), (.writeCpl, 6), (.errorRsp, 7)], k.opc = op.2 →
        (op.2 = 7 → k.tag ≠ noTag) →
        ∃ t, Runs (op.1 p vc) s t ∧ Taken s t p vc ∧ t.mem = s.mem ∧
          fld t.fab.drop.toNat 31 16 = min (fld s.fab.drop.toNat 31 16 + 1) 65535) ∧
    (∀ tag l b x, HubRuns s → liveTag s tag = some r → r.use = .ladleRead l b → mget? s.ladles l = some x →
      s.fab.tmo.toNat ≤ subMod 64 (now s) r.since →
      ∃ t, Runs (.remoteTimeout tag) s t ∧ mget? t.fab.tags tag = some { r with quar := some (now s) } ∧
        mget? t.ladles l = some { x with due := kdel x.due b, fail := some (x.fail.getD .remoteTimeout) }) ∧
    ∀ tag since, HubRuns s → mget? s.fab.tags tag = some r → r.quar = some since → s.fab.tmo.toNat ≤ subMod 64 (now s) since →
      (s.fab.tagWait = [] → Runs (.tagQuarantineEnd tag) s (modFab s fun f => { f with tags := mdel f.tags tag })) ∧
      ∀ u q xs, s.fab.tagWait = (u, q) :: xs → ∃ t x, Runs (.tagQuarantineEnd tag) s t ∧ t.fab.tagWait = xs ∧
        t.fab.inj = s.fab.inj ++ [x] ∧ x.dst = q.dst ∧ x.opc = q.opc ∧ x.addr = q.addr ∧ x.body = q.body

/-- Requests from other nodes, their refusals, and responses. It concludes a next state of: remoteReleasePerform, write,
readReq, readRsp, atomic, atomicRsp, writeCpl, errorRsp, remoteTimeout, tagQuarantineEnd. -/
def Obligations.RemoteAccesses : Prop := Says.RemoteRequests ∧ Says.RemoteRequestsRefused ∧ Says.Responses

/-- R442, R445, R456: a heartbeat is recorded with the time and the step of its sender's latest turning (where it has one,
log entry 104), and a sender in no member's place counts as an idle spare once it is of the epoch in force; the heartbeat
timer sends one to the coordinators; a mirrored decision is kept and acknowledged. -/
def Sys2Proof.Says.HeartbeatsAndMirrors : Prop :=
  ∀ (s : State) (p vc : Nat) (k : Packet),
    (Mail s p vc 1 k → ∃ t b, Runs (.mailboxHeartbeat p vc) s t ∧ b ∈ t.turn.beats ∧ b.tick = now s ∧
      b.node = k.src ∧ (mBase k.body ≠ 2 ^ 48 - 1 → mBase k.body ∈ b.turns) ∧ t.mem = s.mem ∧
      (beatFresh s k.body = true → (∀ m ∈ s.obj.members, placeOf s m.1 ≠ k.src) → k.src ∈ t.turn.spares)) ∧
    (RindRuns s → s.obj.job.isSome = true → s.triage.unfit = false → beatTime s ≤ subMod 64 (now s) s.turn.lastBeat →
      anyAsleep s (slotParts s (lastSlot s) ++ [(mirrorBase s 0, 8), (mirrorBase s 1, 8)]) = false →
      ∃ t, Runs .heartbeatTimer s t ∧ t.turn.lastBeat = now s ∧ Mailed t (activeNode s) 1 ∧ Mailed t (standbyNode s) 1) ∧
    (Mail s p vc 4 k → isFrom s k.src (activeNode s) = true → mParts k.body = 1 → mPart k.body = 0 →
      ∃ t, Runs (.mailboxMirror p vc) s t ∧ t.turn.mirrored = some (decisionOf k.src k.body) ∧ Mailed t k.src 5)

/-- R444, R445, R448: the loss of a member, the report of a fault, a standby that does not acknowledge, and a takeover each
put a new decision in hand, whose DSEQ is one above every one seen; a report that the decision in hand or the accepted one
covers (`covers`, log entry 104) is only acknowledged. -/
def Sys2Proof.Says.DecisionsTaken : Prop :=
  ∀ (s : State), RindRuns s →
    let decides := fun (i : Instr) => ∃ t d, Runs i s t ∧ inHand t = some d ∧ d.dseq = topDseq s + 1 ∧ t.mem = s.mem
    (∀ node, coordRole s = 2 → node ∈ lostMembers s → decides (.memberLossExpiry node)) ∧
    (∀ node, (coordRole s ≠ 2 ∨ node ∉ lostMembers s) → Runs (.memberLossExpiry node) s s) ∧
    (∀ d q, s.turn.decide = some (d, false, q) → lossTime s ≤ subMod 64 (now s) s.turn.decideTick →
      decides .mirrorAckTimeout) ∧
    (s.obj.job.isSome = true → coordRole s = 1 → isCurrent s (activeNode s) = false →
      decides .standbyTakeover ∧ ∃ t, Runs .standbyTakeover s t ∧ coordRole t = 2 ∧ activeNode t = logicalNode s % 2 ^ 16) ∧
    ∀ p vc k, Mail s p vc 2 k → coordRole s = 2 →
      let member := ∃ m ∈ s.obj.members, m.1 = mSubject k.body
      let links := (mEnts k.body).filter fun e => entRow e &&& (mget s.fab.fmap 0 (entNode e)).toNat ≠ entRow e
      let met := fun (lost : List Nat) =>
        ∃ d, (inHand s = some d ∨ s.turn.accepted = some d) ∧ covers s d k.body lost links = true
      ∀ lost, lost = [] ∧ (isCurrent s (mSubject k.body) = true ∨ ¬ member) ∨
        lost = [mSubject k.body] ∧ isCurrent s (mSubject k.body) = false ∧ member →
      (¬ met lost → decides (.mailboxReport p vc)) ∧
      (met lost →
        ∃ t, Runs (.mailboxReport p vc) s t ∧ t.turn.decide = s.turn.decide ∧ Mailed t k.src 5)

/-- Heartbeats, mirrored decisions, and the decisions of a coordinator. It concludes a next state of: heartbeatTimer,
memberLossExpiry, standbyTakeover, mirrorAckTimeout, mailboxHeartbeat, mailboxReport, mailboxMirror. -/
def Obligations.CoordinatorMessages : Prop := Says.HeartbeatsAndMirrors ∧ Says.DecisionsTaken

/-- R445 to R450, R463: MAILBOX_ACK, the acknowledgement of the standby, sends the decision in hand; MAILBOX_DECISION: a
member accepts a decision that orders after the last one from a node that may send it, records its DSEQ, and starts a
replay or, under HALT, halts; DECISION_GO ends the replay; and MAILBOX_READY, once every member has sent it, ends the
decision. -/
def Sys2Proof.Says.DecisionsCarriedOut : Prop :=
  ∀ (s : State) (p vc : Nat) (k : Packet),
    (∀ d q n, Mail s p vc 5 k → s.turn.decide = some (d, false, q) → d.dseq = mDseq k.body → d.epoch = mEpoch k.body →
      nextStandby s (logicalNode s) d.ents = some n → isFrom s k.src n = true →
      ∃ t, exec (.mailboxAck p vc) s = .next t ∧ t.turn.decide = some (d, true, true) ∧ t.turn.ready = []) ∧
    (Mail s p vc 3 k → mParts k.body = 1 → mPart k.body = 0 → bitOf (mCode k.body) 0 = false →
      ordersAfter s (decisionOf k.src k.body) = true → maySend s (decisionOf k.src k.body) = true →
      ∃ t, exec (.mailboxDecision p vc) s = .next t ∧ t.turn.accepted = some (decisionOf k.src k.body) ∧
        coordDseq t = mDseq k.body ∧ replaying t = decide (mCode k.body < 4) ∧
        bitOf t.turn.coordStat.toNat 29 = decide (4 ≤ mCode k.body)) ∧
    (∀ d, Mail s p vc 3 k → bitOf (mCode k.body) 0 = true → s.turn.accepted = some d → d.epoch = mEpoch k.body →
      d.dseq = mDseq k.body → isFrom s k.src (activeNode s) = true → mPart k.body = 0 → replaying s = true →
      ∃ t, exec (.decisionGo p vc) s = .next t ∧ replaying t = false) ∧
    ∀ d q, Mail s p vc 6 k → s.turn.decide = some (d, q, true) → d.dseq = mDseq k.body → d.epoch = mEpoch k.body →
      s.turn.lost = false →
      ((∀ m ∈ s.obj.members, ∃ n ∈ kput s.turn.ready k.src, isFrom s n m.1 = true) →
        ∃ t, exec (.mailboxReady p vc) s = .next t ∧ t.turn.decide = none) ∧
      ((∃ m ∈ s.obj.members, ∀ n ∈ kput s.turn.ready k.src, isFrom s n m.1 = false) →
        ∃ t, exec (.mailboxReady p vc) s = .next t ∧ t.turn.decide = s.turn.decide ∧
          t.turn.ready = kput s.turn.ready k.src)

/-- R455: SPARE_MIRROR_COPY: the twin of a lost member sends the next part of its mirror slot to the spare, the granules
first, then the header, and VALID last, only once every other part is written there, and is done once that is written
too; nothing of memory changes. Without a copy to make or to wait for, nothing happens. -/
def Sys2Proof.Says.SpareCopies : Prop :=
  ∀ (s : State), RindRuns s →
    let total := granuleCount (turnRegions s)
    (∀ c, s.turn.spareCopy = some c → s.fab.tags.length + 1366 ≤ 65535 →
      asleep s (mirrorBase s c.slot + (sparePart s c.next).1) (sparePart s c.next).2 = false →
      (c.next ≤ total ∨ (c.next = total + 1 ∧ c.due = 0)) →
      ∃ t sent, exec .spareMirrorCopy s = .next t ∧ t.mem = s.mem ∧ t.fab.inj = s.fab.inj ++ sent ∧
        sent.length = (if c.next ≤ total then 1366 else 1) ∧ (∀ x ∈ sent, x.dst = c.spare ∧ x.opc = 1 ∧ x.tc = 1) ∧
        t.turn.spareCopy = some { c with next := c.next + 1, due := c.due + sent.length }) ∧
    (∀ c, s.turn.spareCopy = some c → total < c.next → c.due ≠ 0 → exec .spareMirrorCopy s = .next s) ∧
    (∀ c, s.turn.spareCopy = some c → total + 1 < c.next → c.due = 0 →
      exec .spareMirrorCopy s = .next (modTurn s fun t => { t with spareCopy := none })) ∧
    (s.turn.spareCopy = none → s.turn.spareWait = false → exec .spareMirrorCopy s = .next s)

/-- A decision carried out by a member, and the copy for a spare. It concludes a next state of: mailboxAck,
mailboxDecision, decisionGo, mailboxReady, spareMirrorCopy. -/
def Obligations.CoordinatorDecisions : Prop := Says.DecisionsCarriedOut ∧ Says.SpareCopies

/-! ## The hoop engine -/

namespace Sys2Proof.Says

/-- A REDUCE message of a phase stands at the head of a virtual channel in its class and passes the tests of R354 and R411
up to its step: membership, engine on, stage, epoch, bucket and generation. The match buffer has room and the bucket has
had a step. -/
structure Arrival (s : State) (p vc phase : Nat) (k : Packet) : Prop where
  port : p < 12
  hub : HubRuns s
  head : homeHead s p vc = some k
  opc : k.opc = 9
  tc : k.tc = 3
  is : rPhase k.body = phase
  member : admitted s k = true
  on : hoopOn s = true
  room : s.hoop.matchB.length < 4096
  stage : rStage k.body ≠ 3
  epoch : rEpoch k.body = s.fab.epoch.toNat
  slot : slotOpen s (rBkt k.body) (rGen k.body) = true
  old : isFresh s (rBkt k.body) = false

/-- The message is of the current step of its bucket, which is in progress with nothing waiting in it, and it fits the
bucket and passes its check (R393, R411). -/
structure OfStep (s : State) (m : Bytes) (x : BStep) : Prop where
  now_ : subMod 48 (rStep m) (curStep s (rBkt m)) = 0
  runs : bstep? s (rBkt m) = some x
  bucket : x.b = rBkt m
  on : x.stop = false
  calm : x.wait = []
  fits : msgFits s m = true
  good : arrivalOk m = true

/-- The REDUCE messages that carry data, with their phases (R412). -/
def reduces : List ((Nat → Nat → Instr) × Nat) :=
  [(.reduceScaleRs, 0), (.reduceScaleAg, 1), (fun p vc => .reduceRedRs p vc {}, 2), (.reduceRedAg, 3)]

/-- The two signals with their KINDs (R384). -/
def signals : List ((Nat → Dword → Instr) × Nat) := [(.hoopScaleReady, 0), (.hoopBucketReady, 1)]

/-- A message taken is covered by an ACK to its sender, one that gathers or one that has been sent (R401). -/
def Acked (t : State) (k : Packet) : Prop :=
  (∃ g ∈ t.hoop.acks, g.node = k.src ∧ g.head = wordsB [wordAt k.body 0, rStep k.body] ∧
    g.map.testBit (rIndex k.body - g.first) = true) ∨
  ∃ q ∈ t.fab.inj, q.dst = k.src ∧ q.opc = 9 ∧ q.tc = 3 ∧ rPhase q.body = 4 ∧ rStep q.body = rStep k.body

/-- A REDUCE message of `Arrival` in all but the tests of its epoch, its slot and its bucket. -/
structure ReduceReaches (s : State) (p vc phase : Nat) (k : Packet) : Prop where
  port : p < 12
  hub : HubRuns s
  head : homeHead s p vc = some k
  opc : k.opc = 9
  tc : k.tc = 3
  is : rPhase k.body = phase
  member : admitted s k = true

/-- A step of bucket `b` in progress. -/
structure StepRuns (s : State) (b : Nat) (x : BStep) : Prop where
  runs : bstep? s b = some x
  on : x.stop = false

/-- The resend buffer has room for a block, and none waits for it (R401). -/
def HasRoom (s : State) : Prop := s.hoop.sendq = [] ∧ s.hoop.resend.length < 32768

end Sys2Proof.Says

/-- R384, R385, R417: a signal for the step after the current one is counted for that step and changes two bytes of the
state record alone; so does one for the current step of a bucket with no step in progress. A late signal of a folded step
changes nothing. A signal for a closed slot is dropped: BAD_SIG is counted and flagged; with the engine off nothing
happens. -/
def Sys2Proof.Says.HoopSignals : Prop :=
  ∀ (s : State) (c : Nat) (v : Dword), c < 256 →
    ∀ op ∈ signals, fld v.toNat 25 24 = op.2 →
      let b := fld v.toNat 15 0
      let step := fullStep (curStep s b) (fld v.toNat 63 28)
      (hoopOn s = false → Runs (op.1 c v) s s) ∧
      (hoopOn s = true → slotOpen s b (fld v.toNat 23 16) = false →
        ∃ t, Runs (op.1 c v) s t ∧ t = { s with hoop := { s.hoop with drop := t.hoop.drop, stat := t.hoop.stat } } ∧
          t.hoop.stat.getLsbD 0 = true ∧
          fld t.hoop.drop.toNat 15 0 = min (fld s.hoop.drop.toNat 15 0 + 1) 65535) ∧
      (hoopOn s = true → slotOpen s b (fld v.toNat 23 16) = true → (op.2 = 0 → (bucketOf s b).thin = false) →
        isFresh s b = false →
        (1 < subMod 48 step (curStep s b) → s.hoop.folds.contains (b, step) = true → Runs (op.1 c v) s s) ∧
        ∀ next : Bool, subMod 48 step (curStep s b) = (if next then 1 else 0) → (next = false → bstep? s b = none) →
          ∃ t, Runs (op.1 c v) s t ∧ sigCount t b op.2 next = min (sigCount s b op.2 next + 1) 65535 ∧
            MemStands s t (recAt s b + sigOff op.2 next) 2 ∧ t.hoop = { s.hoop with early := t.hoop.early })

/-- R327, R382, R385, R386, R409, R413: a bucket entry that a signal or an arrival needs is loaded; the next step opens with
the messages held for it; and a step whose blocks are all final, and their writes performed, ends with LAST 1 and one more
FENCE_RED. -/
def Sys2Proof.Says.BucketStepsRun : Prop :=
  ∀ (s : State) (b : Nat), HubRuns s →
    (slotOpen s b (bucketOf s b).gen = true → nextHeld s b = true → b ∉ s.hoop.loaded → s.hoop.loaded.length < 1024 →
      Runs (.bucketMatchLoad b) s (modHoop s fun h => { h with loaded := h.loaded ++ [b] })) ∧
    (hoopOn s = true → slotOpen s b (bucketOf s b).gen = true → isFresh s b = false → bstep? s b = none →
      nextHeld s b = true → b ∈ s.hoop.loaded → b ∉ s.hoop.closing →
      ∃ t x, Runs (.bucketStepOpen b) s t ∧ bstep? t b = some x ∧ x.step = (curStep s b + 1) % 2 ^ 48 ∧
        (t.hoop.matchB = s.hoop.matchB.filter fun m => rBkt m.2 != b) ∧
        (s.hoop.fails.contains (stopKey x.step b) = true → x.stop = true ∧ recNum t b 7 1 = 3)) ∧
    ∀ x, StepRuns s b x → (bucketOf s b).blocks ≤ x.redDone.length → x.folded = false → x.joined = [] →
      hoopClear s b = true →
      (∀ i, fenceAddr s i + 32 ≤ recAt s b ∨ recAt s b + 64 ≤ fenceAddr s i) →
      ∃ t, Runs (.bucketStepComplete b) s t ∧ bstep? t b = none ∧ recNum t b 7 1 = 1 ∧
        recNum t b 0x10 8 = (recNum s b 0x10 8 + 1) % 2 ^ 64

/-- R354, R393, R400, R401, R411: a data message for the step after the current one that fits its bucket is checked as it
arrives: one that passes is covered by an ACK and held in the match buffer, and the first failure of one is counted and
answered with a NAK. One that does not fit its bucket, one of another step, of another epoch, and of a closed slot or another
generation is dropped and counted, in STALE_STEP, STALE_EPOCH or STALE_GEN; while the match buffer is full every message
stays where it is. No memory changes. -/
def Sys2Proof.Says.ReduceMessagesTested : Prop :=
  ∀ (s : State) (p vc : Nat) (k : Packet), ∀ op ∈ reduces,
    let m := k.body
    let ahead := subMod 48 (rStep m) (curStep s (rBkt m))
    let drops := fun (lo : Nat) => ∃ t, Runs (op.1 p vc) s t ∧ Taken s t p vc ∧ t.mem = s.mem ∧
      t.hoop = { s.hoop with drop := t.hoop.drop } ∧
      fld t.hoop.drop.toNat (lo + 15) lo = min (fld s.hoop.drop.toNat (lo + 15) lo + 1) 65535
    let here := rEpoch m = s.fab.epoch.toNat
    (Arrival s p vc op.2 k → ahead = 1 → s.hoop.fails.contains (stopKey (rStep m) (rBkt m)) = false →
      (msgFits s m = true → arrivalOk m = true → s.hoop.matchB.any (sameItem m) = false →
        ∃ t, Runs (op.1 p vc) s t ∧ Taken s t p vc ∧ t.mem = s.mem ∧ Acked t k ∧
          t.hoop = { s.hoop with matchB := s.hoop.matchB ++ [(k.src, m)], early := t.hoop.early, acks := t.hoop.acks }) ∧
      (msgFits s m = true → arrivalOk m = false →
        s.hoop.fails.contains (failKey (rStep m) 48 (rBkt m) (rPhase m) (rStage m) (rIndex m)) = false →
        ∃ t q, Runs (op.1 p vc) s t ∧ Taken s t p vc ∧ t.mem = s.mem ∧ t.hoop.matchB = s.hoop.matchB ∧
          fld t.hoop.chk.toNat 63 48 = min (fld s.hoop.chk.toNat 63 48 + 1) 65535 ∧
          q ∈ t.fab.inj ∧ q.dst = k.src ∧ q.opc = 9 ∧ rPhase q.body = 5 ∧ rStep q.body = rStep m ∧ rIndex q.body = rIndex m) ∧
      (msgFits s m = false → drops 16)) ∧
    (Arrival s p vc op.2 k → 1 < ahead → drops 16) ∧
    (ReduceReaches s p vc op.2 k → 4096 ≤ s.hoop.matchB.length → Runs (op.1 p vc) s s) ∧
    (ReduceReaches s p vc op.2 k → hoopOn s = true → s.hoop.matchB.length < 4096 → rStage m ≠ 3 →
      (¬here → drops 32) ∧ (here → slotOpen s (rBkt m) (rGen m) = false → drops 48))

/-- R385, R388, R405: a partial of the current step that comes before this member's own contribution waits for it, and the
hold window runs. -/
def Sys2Proof.Says.ReducePartialsWait : Prop :=
  ∀ (s : State) (p vc : Nat) (k : Packet) (x : BStep), ∀ op ∈ [(Instr.reduceScaleRs, 0),
      (fun p vc => Instr.reduceRedRs p vc {}, 2)],
    Arrival s p vc op.2 k → OfStep s k.body x → x.hops = [] → x.folded = false → logged s x.step = false →
    isReady s x.b (op.2 / 2) = false →
    ∃ t y, Runs (op.1 p vc) s t ∧ Taken s t p vc ∧ t.mem = s.mem ∧ bstep? t x.b = some y ∧
      Acked t k ∧ y.wait = [(k.src, k.body)] ∧ y.window = some (x.window.getD (now s)) ∧ y.hops = []

/-- The tests of a REDUCE message, and the messages that wait. It concludes a next state of: reduceScaleRs, reduceScaleAg,
reduceRedRs, reduceRedAg. -/
def Obligations.ReduceArrivals : Prop := Says.ReduceMessagesTested ∧ Says.ReducePartialsWait

/-- R388, R392 to R395, R401: a partial sum that finds this member's contribution ready, in a bucket that is not thinned
and with the rescale in line, is added to it; a member that does not own the block sends the sum to the next one and
keeps it for a resend. -/
def Sys2Proof.Says.ReduceHop : Prop :=
  ∀ (s : State) (p vc : Nat) (k : Packet) (x : BStep) (g : GBlock),
    let m := k.body
    let j := rIndex m
    let d := rStage m
    let e := bucketOf s x.b
    Arrival s p vc 2 k → OfStep s m x → x.hops = [] → x.folded = false → x.begun = true → x.joined = [] →
    isReady s x.b 1 = true → e.thin = false → dutyMode s 2 = 0 → (hopStages s).head? = some d → takesPart s d j = true →
    HasRoom s → s.hoop.upset = {} → chainAt s d j ≠ 0 → ownsBlock s d j = false → readBlock s (e.src + 132 * j) = some g →
    ∃ t r, Runs (.reduceRedRs p vc {}) s t ∧ r ∈ t.hoop.resend ∧ r.node = downNode s d j ∧ rPhase r.body = 2 ∧
      rIndex r.body = j ∧ rCount r.body = min (1 + rCount m) 65535 ∧
      rLoad r.body 132 = gBytes (gFinish (gAdd [gRead (rLoad m 132), g] false)).g

/-- R389, R391: a gathered sum is written to its block of DST and no other byte of memory changes; gathered exponents are
written beside the local ones, and the item counts as done. A write that its memory does not take yet is held and read
back as written by the hub (`hubBytes`). -/
def Sys2Proof.Says.ReduceGather : Prop :=
  ∀ (s : State) (p vc : Nat) (k : Packet) (x : BStep),
    let m := k.body
    let j := rIndex m
    let e := bucketOf s x.b
    OfStep s m x → s.hoop.sendq = [] →
    (Arrival s p vc 3 k → j ∉ x.redDone →
      ∃ t y, Runs (.reduceRedAg p vc) s t ∧ hubBytes t (e.dst + 132 * j) 132 = rLoad m 132 ∧
        MemStands s t (e.dst + 132 * j) 132 ∧ bstep? t x.b = some y ∧ y.redDone = kput x.redDone j) ∧
    (Arrival s p vc 1 k → j ∉ x.sclDone → x.sclDone.length + 1 < itemsOf e 0 →
      (bktAt s x.b + 64 ≤ e.exp ∨ e.exp + 2 * groupsOf e ≤ bktAt s x.b) →
      ∃ t y, Runs (.reduceScaleAg p vc) s t ∧ bstep? t x.b = some y ∧ y.sclDone = kput x.sclDone j ∧
        (∀ i, i < 128 → 128 * j + i < groupsOf e →
          hubNum t (e.exp + 2 * (128 * j + i) + 1) 1 = ((rLoad m 128).getD i 0).toNat) ∧
        ∀ a, (∀ i, i < 128 → 128 * j + i < groupsOf e → a ≠ e.exp + 2 * (128 * j + i) + 1) → rdByte t a = rdByte s a)

/-- The hops of reduce-scatter and of all-gather. It concludes a next state of: reduceScaleAg, reduceRedRs, reduceRedAg. -/
def Obligations.ReduceHops : Prop := Says.ReduceHop ∧ Says.ReduceGather

/-- R400, R401: an ACK takes the block that it covers out of the resend buffer; a first NAK sends the block again and sets
RESEND (bit 6); the timer of a gathered ACK sends it; a block without an ACK in time is sent again once, and after
that is reported as a stall. The sender of an ACK or NAK is the node that stands for the neighbour (R362). It
concludes a next state of: reduceAck, reduceNak, reduceAckTimer, reduceResendTimeout. -/
def Obligations.ReduceAcknowledgements : Prop :=
  ∀ (s : State), HubRuns s →
    (∀ p vc k r i, Arrival s p vc 4 k → subMod 48 (rStep k.body) (curStep s (rBkt k.body)) = 0 → s.hoop.steps = [] →
      s.hoop.sendq = [] → i < 64 → leVal (rLoad k.body 8) = 2 ^ i → resendOf s k.src k.body (rIndex k.body + i) none = some r →
      ∃ t, Runs (.reduceAck p vc) s t ∧ Taken s t p vc ∧ t.mem = s.mem ∧ t.hoop.resend = s.hoop.resend.erase r) ∧
    (∀ p vc k r, Arrival s p vc 5 k → subMod 48 (rStep k.body) (curStep s (rBkt k.body)) = 0 →
      resendOf s k.src k.body (rIndex k.body) (some (leVal (rLoad k.body 1) % 8)) = some r → r.naks = 0 →
      ∃ t, Runs (.reduceNak p vc) s t ∧ Taken s t p vc ∧ t.mem = s.mem ∧ t.hoop.stat.getLsbD 6 = true ∧
        { r with naks := 1, since := now s } ∈ t.hoop.resend ∧
        ∃ q, t.fab.inj = s.fab.inj ++ [q] ∧ q.dst = r.node ∧ q.opc = 9 ∧ q.tc = 3 ∧ q.body = r.body) ∧
    (∀ k g, s.hoop.acks[k]? = some g → ∃ t q, Runs (.reduceAckTimer k) s t ∧ t.hoop.acks = s.hoop.acks.eraseIdx k ∧
      t.fab.inj = s.fab.inj ++ [q] ∧ q.dst = g.node ∧ q.opc = 9 ∧ rPhase q.body = 4 ∧ t.mem = s.mem) ∧
    ∀ k r, s.hoop.resend[k]? = some r → s.fab.tmo.toNat ≤ subMod 64 (now s) r.since →
      (r.touts = 0 → ∃ t q, Runs (.reduceResendTimeout k) s t ∧ t.hoop.stat.getLsbD 6 = true ∧
        t.fab.inj = s.fab.inj ++ [q] ∧ q.dst = r.node ∧ q.body = r.body) ∧
      (r.touts ≠ 0 → s.obj.job.isSome = true →
        ∃ t, Runs (.reduceResendTimeout k) s t ∧ Mailed t (activeNode s) 2 ∧ t.mem = s.mem)

/-- R392, R395, R396: whatever the inputs of a hop, the block that leaves it has mantissas of 16 bits, and where the sums
fit at the largest exponent it is the exact sum. -/
def Obligations.HopArithmetic : Prop :=
  (∀ h : HopSum, (∀ v ∈ h.lanes, -(2 ^ 19) ≤ v ∧ v < 2 ^ 19) → lanesFit (gFinish h).g.m = true) ∧
  ∀ a b : GBlock, a.x = b.x → a.flags < 8 → b.flags < 8 → a.m.length = 64 → b.m.length = 64 →
    lanesFit (List.zipWith (· + ·) a.m b.m) = true →
    (gFinish (gAdd [a, b] false)).g.m = List.zipWith (· + ·) a.m b.m ∧ (gFinish (gAdd [a, b] false)).g.x = a.x

/-- R405 to R409, R413: when the hold window ends, a step under FOLD that is not chronic is folded, and any other stops as
MISSING; the late contribution of a folded step goes to a free ripening slot with its origin step; a step in which nothing
arrives is reported as a stall; and a block that the rind has rescaled goes on. -/
def Sys2Proof.Says.LateContributions : Prop :=
  ∀ (s : State) (b : Nat) (x : BStep), HubRuns s → StepRuns s b x → x.b = b →
    let e := bucketOf s b
    (∀ since, x.window = some since → e.hold ≤ subMod 64 (now s) since →
      (e.fold = true → s.hoop.stat.getLsbD 8 = false →
        ∃ t y, Runs (.holdWindowExpiry b) s t ∧ bstep? t b = some y ∧ y.folded = true ∧ y.step = x.step ∧
          t.hoop.stat.getLsbD 1 = true) ∧
      (e.fold = false ∨ s.hoop.stat.getLsbD 8 = true →
        ∃ t y, Runs (.holdWindowExpiry b) s t ∧ bstep? t b = some y ∧ y.stop = true ∧ recNum t b 7 1 = 5 ∧
          (s.obj.job.isSome = true → Mailed t (activeNode s) 2))) ∧
    (∀ k, x.folded = true → x.lateDone = false → isReady s b 1 = true → k < e.ripenMax → ripeFull s b k = false →
      (∀ i, i < k → ripeFull s b i = true) → x.joined = [] → s.hoop.upset.localRead = 0 →
      let place := e.ripe + 132 * (k * e.blocks)
      (∀ j, j < e.blocks → (readBlock s (e.src + 132 * j)).isSome = true) → Apart e.src place (132 * e.blocks) →
      (recAt s b + 64 ≤ place ∨ place + 132 * e.blocks ≤ recAt s b) → x.step < 2 ^ 48 → k < 3 →
      ∃ t y, Runs (.ripenCopy b) s t ∧ bstep? t b = some y ∧ y.lateDone = true ∧ ripeFull t b k = true ∧
        ripeOrig t b k = x.step ∧ hubBytes t place (132 * e.blocks) = hubBytes s e.src (132 * e.blocks)) ∧
    (x.folded = true → x.lateDone = false → isReady s b 1 = true → (∀ k, k < e.ripenMax → ripeFull s b k = true) →
      x.joined = [] → (x.begun = true ∨ e.ripenMax = 0) → ∃ t y, Runs (.ripenCopy b) s t ∧ bstep? t b = some y ∧ y.lateDone = true ∧ t.hoop.stat.getLsbD 2 = true ∧
        t.mem = s.mem) ∧
    ((isReady s b 1 = true ∨ (e.thin = false ∧ isReady s b 0 = true ∧ x.sclDone.length < itemsOf e 0)) →
      s.hoop.stall.toNat ≤ subMod 64 (now s) x.since → s.obj.job.isSome = true →
      ∃ t y, Runs (.hoopStallExpiry b) s t ∧ bstep? t b = some y ∧ y.since = now s ∧ Mailed t (activeNode s) 2 ∧
        t.mem = s.mem) ∧
    ∀ k q, s.hoop.parked[k]? = some q → RindRuns s → q.b = b → HasRoom s → ownsBlock s q.stage q.j = false →
      q.lanes.length = 64 → q.j < 2 ^ 24 →
      ∃ t r, Runs (.rescaleAssistReturn k) s t ∧ r ∈ t.hoop.resend ∧ r.node = downNode s q.stage q.j ∧
        rPhase r.body = 2 ∧ rIndex r.body = q.j ∧
        rLoad r.body 132 = gBytes (gFinish { lanes := q.lanes, x := q.x, flags := q.flags, nan := false }).g

/-- The signals of a bucket, the beginning and end of its step, and late contributions. It concludes a next state of:
hoopScaleReady, hoopBucketReady, bucketStepOpen, bucketMatchLoad, rescaleAssistReturn, bucketStepComplete,
holdWindowExpiry, ripenCopy, hoopStallExpiry. -/
def Obligations.BucketSteps : Prop := Says.HoopSignals ∧ Says.BucketStepsRun ∧ Says.LateContributions

/-- R374, R379, R419, R504, R553, R594: the reads of registers that a read clears: the value is returned and the register
is then 0, and nothing else changes. It concludes a next state of: readRuongDrop, readRuongPerr, readRuongPcorr,
readHoopDrop, readHoopChk, readHoopRscl, readObjDrop, readIntegCorr, readIntegUncorr, readEthCnt, readPcieLerr. -/
def Obligations.ReadsThatClear : Prop :=
  ∀ (s : State),
    Runs .readHoopDrop s (emit (modHoop s fun h => { h with drop := 0 }) (.reg s.hoop.drop)) ∧
    Runs .readHoopChk s (emit (modHoop s fun h => { h with chk := 0 }) (.reg s.hoop.chk)) ∧
    Runs .readHoopRscl s (emit (modHoop s fun h => { h with rscl := 0 }) (.reg s.hoop.rscl)) ∧
    Runs .readRuongDrop s (emit (modFab s fun f => { f with drop := 0 }) (.reg s.fab.drop)) ∧
    Runs .readObjDrop s (emit (modObj s fun o => { o with drop := 0 }) (.reg s.obj.drop)) ∧
    (∀ p, p < 12 →
      Runs (.readRuongPerr p) s (emit (modPort s p fun q => { q with perr := 0 }) (.reg (portOf s p).perr)) ∧
      Runs (.readRuongPcorr p) s (emit (modPort s p fun q => { q with pcorr := 0 }) (.reg (portOf s p).pcorr))) ∧
    Runs .readIntegCorr s (emit (modTriage s fun x => { x with corr := 0 }) (.reg s.triage.corr)) ∧
    Runs .readIntegUncorr s (emit (modTriage s fun x => { x with uncorr := 0 }) (.reg s.triage.uncorr)) ∧
    (∀ p, p < 2 →
      Runs (.readEthCnt p) s (emit (modEth s p fun e => { e with cnt := 0 }) (.reg (mget s.eths {} p).cnt))) ∧
    ∀ l, l < 4 → Runs (.readPcieLerr l) s (emit (modPcie s l fun x => { x with lerr := 0 }) (.reg (mget s.pcies {} l).lerr))

/-! ## Metering and fault triage -/

namespace Sys2Proof.Says

/-- A command changes nothing but the meter. -/
def MeterOnly (i : Instr) (s t : State) : Prop := Runs i s t ∧ { t with meter := s.meter } = s

/-- An interval has been closed into the next record of the ring, and the record names its number, the module's serial
number, its ends and its energies (R567, R568). -/
def Recorded (m m' : Meter) (serial tick energy : Nat) (service power : Bool) : Prop :=
  m'.head = m.head + 1 ∧ m'.recNew = true ∧
  ∃ r, mget? m'.ring (m'.head.toNat % 256) = some r ∧ r = recordB m serial tick energy service power ∧
    wordAt r 0x08 = (m.head.toNat + 1) % 2 ^ 64 ∧ wordAt r 0x10 = serial % 2 ^ 64 ∧ wordAt r 0x18 = m.tStart % 2 ^ 64 ∧
    wordAt r 0x20 = tick % 2 ^ 64 ∧ wordAt r 0x28 = m.eStart % 2 ^ 64 ∧ wordAt r 0x30 = energy % 2 ^ 64 ∧
    bitOf (wordAt r 0) 48 = service ∧ bitOf (wordAt r 0) 49 = power

/-- An interval has been opened; its bases are the last totals of the generation in force (R567, R569). -/
def Opened (m m' : Meter) (tick energy : Nat) : Prop :=
  m'.isOpen = true ∧ m'.tStart = tick ∧ m'.eStart = energy ∧ m'.base = m.acc.filter (fun kv => kv.1 / 1024 == m.era) ∧
    m'.gens = [] ∧ m'.early = false ∧ m'.got = 0 ∧ m'.miss = false

/-- A service command that the meter accepts: in service mode, under the metrology authority's key, for this meter and
with the next nonce (R572). -/
structure Accepts (s : State) (opc : Nat) (c : MeterCmd) : Prop where
  mode : meterState s.meter = 3
  powered : s.meter.powered = true
  key : sha256 c.pub = Config.metrologyHash
  signed : Config.slhVerify c.pub
    ([BitVec.ofNat 8 opc] ++ wordsB [c.serial.toNat, c.nonce.toNat, c.arg.toNat, c.off.toNat] ++ c.img) c.sig = true
  serial : c.serial.toNat = serialOf s
  nonce : c.nonce = s.meter.nonce + 1

/-- The record that an event leaves in the fault log: its class, source and details, its time and number, and the action
taken (R549, R557). -/
def Logged (s t : State) (f : FaultInfo) (act : Nat) : Prop :=
  ∃ r, t.triage.log.getLast? = some r ∧ r.cls = f.cls ∧ r.source = f.source ∧ r.d0 = f.d0.toNat ∧ r.d1 = f.d1.toNat ∧
    r.d2 = f.d2.toNat ∧ r.tick = now s ∧ r.seq = s.triage.seq ∧ r.action = act ∧
    t.triage.seq = (s.triage.seq + 1) % 2 ^ 32 ∧ t.triage.lastClass = BitVec.ofNat 8 f.cls ∧
    t.triage.lastAct = BitVec.ofNat 3 act

/-- A fault that causes a replay is remembered, with what a recurrence must name again and the job step (R550). -/
def Noted (s t : State) (f : FaultInfo) : Prop :=
  { cls := f.cls, subject := faultSubject f, step := jobStep s, replayed := false } ∈ t.triage.caused

end Sys2Proof.Says

/-- R563 to R568: a frame of the activity channel every 10,000,000 reference ticks, with its generation, number and period
and a CRC over all before it; the meter takes a frame that passes its tests and follows the last one, and no other;
and an interval that has lasted its time closes into a record while the next one opens in the same tick. It concludes
a next state of: activityFrame, meterFrameAccept, intervalClose. -/
def Obligations.MeterReadings : Prop :=
  ∀ (s : State),
    (s.start.mode ≠ .normal ∨ subMod 64 (now s) s.meter.periodFrom < 10000000 → Runs .activityFrame s s) ∧
    (s.start.mode = .normal → HubRuns s → 10000000 ≤ subMod 64 (now s) s.meter.periodFrom →
      ∃ t b, Runs .activityFrame s t ∧ t.out = s.out ++ [.frame (b ++ leBytes 4 (crc32c b))] ∧
        fld (wordAt b 0) 63 48 = s.meter.gen.toNat ∧ fld (wordAt b 0) 31 0 = s.meter.frames % 2 ^ 32 ∧
        wordAt b 8 = (s.meter.frames + 1) % 2 ^ 64 ∧ bitOf (wordAt b 0x10) 1 = false ∧
        t.meter.frames = s.meter.frames + 1 ∧ t.meter.periodFrom = (s.meter.periodFrom + 10000000) % 2 ^ 64 ∧ t.mem = s.mem) ∧
    (∀ f, let gen := fld (wordAt f 0) 63 48
      let seq := fld (wordAt f 0) 31 0
      ((s.meter.powered = false ∨ meterState s.meter = 1 ∨ meterState s.meter = 2 ∨ frameOk f = false ∨
          ∃ q, s.meter.last = some (gen, q) ∧ seq ≤ q) → Runs (.meterFrameAccept f) s s) ∧
      (s.meter.powered = true → meterState s.meter = 0 ∨ meterState s.meter = 3 → frameOk f = true →
        (∀ q, s.meter.last = some (gen, q) → q < seq) →
        ∃ t, MeterOnly (.meterFrameAccept f) s t ∧ t.meter.last = some (gen, seq) ∧ t.meter.got = s.meter.got + 1 ∧
          (∀ e ∈ frameEntries f (fld (wordAt f 0) 47 32), mget t.meter.acc {} (1024 * t.meter.era + e.1) = e.2) ∧
          ((∀ q, s.meter.last ≠ some (gen, q)) → t.meter.era = s.meter.era + 1 ∧ t.meter.gaps = s.meter.gaps) ∧
          (∀ q, s.meter.last = some (gen, q) →
            t.meter.era = s.meter.era ∧ t.meter.gaps = s.meter.gaps + (seq - q - 1 - 8)))) ∧
    ∀ tick energy,
      (meterState s.meter = 0 → s.meter.powered = true → s.meter.isOpen = true → tick = s.meter.tStart + intervalTicks s.meter →
        ∃ t, MeterOnly (.intervalClose tick energy) s t ∧ Recorded s.meter t.meter (serialOf s) tick energy false false ∧
          Opened s.meter t.meter tick energy) ∧
      (meterState s.meter ≠ 0 ∨ s.meter.powered = false ∨ s.meter.isOpen = false ∨ tick ≠ s.meter.tStart + intervalTicks s.meter →
        Runs (.intervalClose tick energy) s s)

/-- R567, R571, R572: the loss and the return of the meter's supply, the service contact, an open presence contact, a status
that has stopped, and a failed self-check. Each changes the meter alone. A meter that returns with its service contact closed
is in service mode, and one with a fault under the seal keeps it. A service entry in the tick of a scheduled close adds its
flag to that record and makes no second one. -/
def Sys2Proof.Says.MeterModes : Prop :=
  ∀ (s : State) (tick energy : Nat),
    let m := s.meter
    let id := serialOf s
    (m.powered = true →
      Runs (.meterPowerLoss tick energy) s { s with meter := { m with powered := false, lossAt := some (tick, energy) } }) ∧
    (m.powered = false → Runs (.meterPowerLoss tick energy) s s) ∧
    (m.powered = true → Runs (.meterPowerReturn tick energy) s s) ∧
    (∀ at_ e, m.powered = false → m.fault = false → m.lossAt = some (at_, e) →
      ∃ t, MeterOnly (.meterPowerReturn tick energy) s t ∧ t.meter.powered = true ∧
        meterState t.meter = (if m.contact then 3 else 0) ∧
        (m.isOpen = true → Recorded m t.meter id at_ e false true) ∧
        (m.contact = false → Opened m t.meter tick energy) ∧ (m.contact = true → t.meter.isOpen = false)) ∧
    (m.powered = false → m.fault = true →
      ∃ t, MeterOnly (.meterPowerReturn tick energy) s t ∧ t.meter.powered = true ∧ meterState t.meter = 2 ∧
        t.meter.head = m.head ∧ t.meter.ring = m.ring) ∧
    (m.contact = false → m.powered = true →
      ∃ t, MeterOnly (.serviceContactClose tick energy) s t ∧ t.meter.contact = true ∧ t.meter.service = true ∧
        t.meter.fault = false ∧ t.meter.tamper = m.tamper + 1 ∧ t.meter.isOpen = false ∧ t.meter.exitReq = false ∧
        (meterState m = 0 → m.isOpen = true → closedNow m tick = false →
          Recorded { m with tamper := m.tamper + 1 } t.meter id tick energy true false) ∧
        (∀ r, meterState m = 0 → m.isOpen = true → m.tStart = tick → mget? m.ring (m.head.toNat % 256) = some r →
          0x40 ≤ r.length → wordAt r 0x20 = tick →
          t.meter.head = m.head ∧ ∃ r', mget? t.meter.ring (m.head.toNat % 256) = some r' ∧ bitOf (wordAt r' 0) 48 = true ∧
            fld (wordAt r' 0x38) 63 32 = t.meter.tamper.toNat) ∧
        (meterState m ≠ 0 ∨ m.isOpen = false → t.meter.head = m.head ∧ t.meter.ring = m.ring)) ∧
    (m.contact = false → m.powered = false →
      Runs (.serviceContactClose tick energy) s { s with meter := { m with contact := true, tamper := m.tamper + 1 } }) ∧
    (m.contact = true → Runs (.serviceContactClose tick energy) s s) ∧
    (m.contact = true → m.powered = true → m.service = true → m.exitReq = true →
      ∃ t, MeterOnly (.serviceContactOpen tick energy) s t ∧ t.meter.service = false ∧ t.meter.contact = false ∧
        Opened m t.meter tick energy) ∧
    (m.contact = true → m.powered = false ∨ m.service = false ∨ m.exitReq = false →
      Runs (.serviceContactOpen tick energy) s { s with meter := { m with contact := false } }) ∧
    (m.contact = false → Runs (.serviceContactOpen tick energy) s s) ∧
    Runs (.meterAbsent true) s { s with meter := { m with present := false } } ∧
    Runs (.meterAbsent false) s { s with meter := { m with silent := true } } ∧
    ∀ breach,
      (m.powered = true → meterState m = 0 ∨ meterState m = 3 → breach = false ∨ m.contact = false →
        Runs (.meterSealedFault breach) s
          { s with meter := { m with fault := true, service := false, exitReq := false, isOpen := false } }) ∧
      (m.powered = false ∨ meterState m = 1 ∨ meterState m = 2 ∨ (breach = true ∧ m.contact = true) →
        Runs (.meterSealedFault breach) s s)

/-- R572: a service command that the meter accepts takes effect and uses up its nonce; one that it does not accept, an
interval outside 60 to 3,600 seconds and an image without its signature set CMD_REJ and change nothing else. An EXIT takes
effect once the service contact is open. -/
def Sys2Proof.Says.MeterServiceCommands : Prop :=
  ∀ (s : State) (c : MeterCmd),
    let m := s.meter
    let rejects := fun (i : Instr) => Runs i s { s with meter := { m with cmdRej := true } }
    (Accepts s 1 c →
      Runs (.setCal c) s
        { s with meter := { m with gain := c.arg, offset := c.off, calVer := m.calVer + 1, nonce := c.nonce } }) ∧
    (Accepts s 2 c → 60 ≤ c.arg.toNat → c.arg.toNat ≤ 3600 →
      Runs (.setInterval c) s { s with meter := { m with interval := c.arg.toNat, nonce := c.nonce } }) ∧
    (Accepts s 3 c →
      ∃ t, Runs (.calCheck c) s t ∧ { t with meter := m, freeIx := s.freeIx } = s ∧
        { t.meter with calResult := m.calResult } = { m with nonce := c.nonce } ∧ t.freeIx = s.freeIx + 1) ∧
    (Accepts s 4 c → Config.meterImageOk c.img = true →
      Runs (.fwUpdate c) s { s with meter := { m with fw := c.img, calVer := m.calVer + 1, nonce := c.nonce } }) ∧
    (Config.meterImageOk c.img = false → rejects (.fwUpdate c)) ∧
    (Accepts s 5 c → m.contact = true →
      Runs (.meterExit c) s { s with meter := { m with exitReq := true, nonce := c.nonce } }) ∧
    (Accepts s 5 c → m.contact = false →
      ∃ t tick energy, Runs (.meterExit c) s t ∧ { t with meter := m, freeIx := s.freeIx } = s ∧ t.meter.service = false ∧
        t.meter.nonce = c.nonce ∧ Opened m t.meter tick energy) ∧
    (∀ op ∈ [(1, Instr.setCal), (2, .setInterval), (3, .calCheck), (4, .fwUpdate), (5, .meterExit)], ¬ Accepts s op.1 c →
      rejects (op.2 c)) ∧
    (c.arg.toNat < 60 ∨ 3600 < c.arg.toNat → rejects (.setInterval c))

/-- The modes of the meter, and its service commands. It concludes a next state of: meterPowerLoss, serviceContactClose,
meterAbsent, meterSealedFault, setCal, setInterval, calCheck, fwUpdate, meterExit, meterPowerReturn,
serviceContactOpen. -/
def Obligations.MeterModesAndService : Prop := Says.MeterModes ∧ Says.MeterServiceCommands

/-- R549 to R551, R556 to R559: an event goes to the log with its action, and one that causes a replay is remembered;
fresh poison marks its place, and poison that a consumer meets is counted and logged; a corrected error is counted; an
error that only a start mends asks for one; the oldest waiting event is taken when none is new; the summary empties
the counts; and a record goes to its place in flash. It concludes a next state of: faultTriage, thresholdWindowEnd,
faultLogAppend. -/
def Obligations.FaultTriageAndLog : Prop :=
  ∀ (s : State) (f : FaultInfo),
    (∀ n ∈ [0x0B, 0x10, 0x11], f.cls = n → ∃ t, Runs (.faultTriage (some f)) s t ∧ Logged s t f 1 ∧ t.mem = s.mem) ∧
    (∀ n ∈ [0x0C, 0x0D], f.cls = n →
      ∃ t, Runs (.faultTriage (some f)) s t ∧ Logged s t f 5 ∧ t.mem = s.mem ∧
        (s.start.stage = 4 → s.start.mode = .normal → s.start.request = none → t.start.request = some false) ∧
        (s.start.stage.toNat < 4 → s.start.stage ≠ 2 → s.start.fail ≠ 0 → s.start.mode = .normal → s.start.request = none →
          t.start.request = some true) ∧
        ((s.start.stage.toNat < 4 ∧ s.start.fail = 0) ∨ s.start.request.isSome = true ∨ s.start.mode ≠ .normal →
          t.start = s.start)) ∧
    (∀ n ∈ [0x05, 0x07], f.cls = n →
      (recurs s f = true → ∃ t, Runs (.faultTriage (some f)) s t ∧ Logged s t f 6 ∧ t.triage.unfit = true) ∧
      (recurs s f = false → ∃ t, Runs (.faultTriage (some f)) s t ∧ Logged s t f 3 ∧ t.triage.unfit = s.triage.unfit ∧ Noted s t f)) ∧
    (∀ n ∈ [0x08, 0x0E], f.cls = n →
      (recurs s f = true → ∃ t, Runs (.faultTriage (some f)) s t ∧ Logged s t f 6 ∧ t.triage.unfit = true) ∧
      (recurs s f = false → ∃ t, Runs (.faultTriage (some f)) s t ∧ Logged s t f 2 ∧ Noted s t f ∧
        (s.obj.job.isSome = true → t.triage.replayReq = true))) ∧
    (f.cls = 2 → f.place = none → f.met = false → isMem f.d0.toNat = true →
      ∃ t, Runs (.faultTriage (some f)) s t ∧ isBad t f.d0.toNat 1 = true ∧ t.mem = s.mem) ∧
    (f.cls = 2 → f.met = true → f.place = none → granulesOf s f.d0.toNat 1 = [] → jobConsumer s f = false →
      ∃ t, Runs (.faultTriage (some f)) s t ∧ Logged s t f 1 ∧ t.bad = s.bad ∧ t.mem = s.mem) ∧
    (f.cls = 3 → f.place = none → f.tier = .fabric → f.consumer = none →
      ∃ t, Runs (.faultTriage (some f)) s t ∧ Logged s t { f with d0 := 0 } 1 ∧ t.bad = s.bad ∧ t.mem = s.mem ∧
        fld t.triage.uncorr.toNat 15 0 = min (fld s.triage.uncorr.toNat 15 0 + 1) 0xFFFF) ∧
    (∀ c n, f.cls = 3 → f.place = some (.load c n) →
      ∃ t, Runs (.faultTriage (some f)) s t ∧
        (coreOf t c).acc = (coreOf s c).acc.map fun a => if a.n = n then { a with bad := true } else a) ∧
    (f.cls = 1 → f.tier = .cave →
      ∃ t, Runs (.faultTriage (some f)) s t ∧
        fld t.triage.corr.toNat 47 32 = min (fld s.triage.corr.toNat 47 32 + 1) 0xFFFF ∧ t.mem = s.mem) ∧
    (∀ fs, s.triage.attn = f :: fs →
      exec (.faultTriage none) s = exec (.faultTriage (some f)) { s with triage := { s.triage with attn := fs } }) ∧
    (s.triage.attn = [] → Runs (.faultTriage none) s s) ∧
    (subMod 64 (now s) s.triage.windowFrom < 360000000000 → Runs .thresholdWindowEnd s s) ∧
    (360000000000 ≤ subMod 64 (now s) s.triage.windowFrom → s.triage.seq < 2 ^ 32 →
      ∃ t, Runs .thresholdWindowEnd s t ∧ t.triage.ce = [] ∧ t.triage.windowFrom = now s ∧
        t.triage.seq = (s.triage.seq + s.triage.ce.length) % 2 ^ 32 ∧ { t with triage := s.triage } = s) ∧
    (∀ r, RindRuns s → (unflashed s.triage).head? = some r →
      ∃ t, Runs .faultLogAppend s t ∧ flashB t (0x2200000 + 64 * (r.seq % 262144)) 64 = recordBytes r ∧
        t.triage.flashed = (r.seq + 1) % 2 ^ 32 ∧ t.start.flashChg = true ∧ t.mem = s.mem) ∧
    (unflashed s.triage = [] → Runs .faultLogAppend s s)

/-! ## Power, clocks and starts -/

namespace Sys2Proof.Says

/-- Rails 1 to 6 fall: the state that they feed is gone, and the always-on domain with its count, the meter, flash
and the position stay (R520, R604). -/
structure RailsDown (s t : State) (m : Mode) : Prop where
  rails : t.pow.rise = false ∧ t.pow.rails = s.pow.rails
  pgood : t.pow.pgood = false
  mode : t.start.mode = m
  stage : t.start.stage = 0
  counted : t.refCnt = s.refCnt
  meter : t.meter = s.meter
  flash : s.start.flashWrite = none → t.start.flash = s.start.flash
  pos : t.pow.pos = s.pow.pos
  memory : t.mem = [] ∧ t.bad = []
  faults : t.triage.log = [] ∧ t.triage.attn = [] ∧ t.triage.seq = s.triage.seq
  units : t.cores = [] ∧ t.ports = [] ∧ t.ladles = [] ∧ t.fab = {} ∧ t.hoop = {} ∧ t.turn = {} ∧ t.qw = {}

/-- The cold sequence has begun: stage 0 with every volatile register and memory as after reset; flash, the records that
are not yet in it, and the position stay (R517, R520, R522, R556). -/
structure Cold (s t : State) : Prop where
  mode : t.start.mode = .normal
  stage : t.start.stage = 0 ∧ t.start.warm = false ∧ t.start.released = false ∧ t.start.cfg = none ∧ t.start.request = none
  flash : s.start.flashWrite = none → t.start.flash = s.start.flash
  pos : t.pow.pos = s.pow.pos ∧ t.pow.rise = s.pow.rise ∧ t.pow.rails = s.pow.rails
  memory : t.mem = [] ∧ t.bad = []
  units : t.cores = [] ∧ t.ports = [] ∧ t.ladles = [] ∧ t.fab = {} ∧ t.hoop = {} ∧ t.turn = {} ∧ t.qw = {} ∧ t.clk = {}
  faults : t.triage.attn = [] ∧ (s.triage.attn = [] → t.triage.log = unflashed s.triage ∧ t.triage.seq = s.triage.seq)

/-- A die is at 115 °C or above in a power window, in units of 1/128 °C: the hub, a vat, or a stack by its last sensor word
(R607, R610). -/
def DieHot (s : State) (w : PowerSample) : Prop :=
  14720 ≤ w.hub ∨ (∃ x ∈ w.tj, 14720 ≤ x) ∨ ∃ k v, k < 24 ∧ mget? s.pow.sensors (0x10 + k) = some v ∧ 14720 ≤ v.toInt

/-- A power window in which the module trips: a hot die, or an inlet above 50 °C (R607). -/
def Trips (s : State) (w : PowerSample) : Prop := DieHot s w ∨ ∃ x, w.inlet = some x ∧ 6400 < x

/-- The contexts of a module stopped for a warm start (R521). -/
def stoppedAll (s : State) : State := s.obj.ctxs.foldl (fun s kv => stopContext s kv.1) s

end Sys2Proof.Says

/-- R24, R601 to R604, R606 to R611: input power, EN and the rails; a tick, which brings one rail more into tolerance and
after the last one releases PGOOD; the power window with its gate count and thermal floors, or its trip; and low flow.
It concludes a next state of: powerApply, powerLoss, enHigh, enLow, powerGoodHandshake, undervoltage,
railOutOfTolerance, powerWindow, flowLow. -/
def Obligations.PowerInput : Prop :=
  ∀ (s : State),
    let up := s.pow.vin = true ∧ s.pow.rise = true
    (∀ pos, s.pow.vin = false → s.pow.en = true → s.pow.latched = false →
      Runs (.powerApply pos) s { s with pow := { s.pow with vin := true, pos := pos, rise := true } }) ∧
    (∀ pos, s.pow.vin = true → s.pow.en = true → s.pow.latched = false →
      Runs (.powerApply pos) s { s with pow := { s.pow with rise := true } }) ∧
    (∀ pos, s.pow.vin = true → s.pow.en = false ∨ s.pow.latched = true → Runs (.powerApply pos) s s) ∧
    (s.pow.vin = true → s.pow.latched = false → Runs .enHigh s { s with pow := { s.pow with en := true, rise := true } }) ∧
    (s.pow.vin = false ∨ s.pow.latched = true → Runs .enHigh s { s with pow := { s.pow with en := true } }) ∧
    (s.pending = [] →
      (s.pow.rise = true → s.pow.rails < 6 →
        ∃ t, step s = .next t ∧ t.pow.rails = s.pow.rails + 1 ∧ t.pow.pgood = s.pow.pgood) ∧
      (s.pow.rise = true → s.pow.rails = 6 → ∃ t, step s = .next t ∧ t.pow.rails = 6 ∧ t.pow.pgood = true) ∧
      (s.pow.rise = false → ∃ t, step s = .next t ∧ t.pow.rails = s.pow.rails - 1 ∧ t.pow.pgood = s.pow.pgood)) ∧
    (up → ∃ t, Runs .enLow s t ∧ RailsDown s t .off ∧ t.pow.en = false ∧ t.pow.latched = false) ∧
    (up → ∃ t, Runs .undervoltage s t ∧ RailsDown s t .off ∧ t.pow.latched = s.pow.latched) ∧
    (∀ rail, rail < 7 → up → rail ≤ s.pow.rails →
      ∃ t, Runs (.railOutOfTolerance rail) s t ∧ RailsDown s t .off ∧ t.pow.latched = true) ∧
    (∀ rail, rail < 7 → s.pow.rails < rail → Runs (.railOutOfTolerance rail) s s) ∧
    (s.pow.vin = true → ∃ t, Runs .powerLoss s t ∧ t.refCnt = 0 ∧ t.meter = s.meter ∧
      (s.start.flashWrite = none → t.start.flash = s.start.flash) ∧ t.start.mode = .off ∧ t.pow.vin = false ∧
      t.pow.rise = false ∧ t.pow.pgood = false ∧ t.pow.en = s.pow.en ∧ t.mem = [] ∧ t.cores = []) ∧
    (s.pow.vin = true → s.pow.en = true → s.pow.pgood = true → s.start.mode = .off →
      (s.pow.refGone = false → ∃ t, Runs .powerGoodHandshake s t ∧ Cold s t) ∧
      (s.pow.refGone = true → ∃ t, Runs .powerGoodHandshake s t ∧ t.start.mode = .refLost ∧ t.start.stage = 0 ∧
        t.refCnt = s.refCnt)) ∧
    (∀ w, s.pow.vin = true → s.pow.rise = true → s.pow.rails = 6 → s.start.mode ≠ .refLost →
      let base := inletLimit w.inlet
      let limit := if s.pow.flowLow then min base (128 * 2400) else base
      (subMod 64 (now s) s.pow.winFrom < 100000 → Runs (.powerWindow w) s s) ∧
      (100000 ≤ subMod 64 (now s) s.pow.winFrom → ¬ Trips s w →
        ∃ t, Runs (.powerWindow w) s t ∧ t.pow.base = base ∧ t.pow.winFrom = now s ∧
        t.pow.pAvg = BitVec.ofNat 16 (w.pAvg / 128) ∧
        (limit < w.pAvg → t.pow.k.toNat = min 48 (s.pow.k.toNat + 4)) ∧
        (w.pAvg + 12800 < limit → t.pow.k.toNat = s.pow.k.toNat - 1) ∧
        (w.pAvg ≤ limit → limit ≤ w.pAvg + 12800 → t.pow.k = s.pow.k) ∧
        (∀ v x, v < 4 → w.tj[v]? = some x →
          (13440 ≤ x → t.pow.floors.getD v 0 = 32) ∧ (x < 12800 → t.pow.floors.getD v 0 = 0) ∧
          (12800 ≤ x → x < 13440 → t.pow.floors.getD v 0 = s.pow.floors.getD v 0) ∧
          t.pow.kv.getD v 0 = max t.pow.k.toNat (t.pow.floors.getD v 0)) ∧
        t.mem = s.mem ∧ t.cores = s.cores) ∧
      (100000 ≤ subMod 64 (now s) s.pow.winFrom → Trips s w →
        ∃ t, Runs (.powerWindow w) s t ∧ RailsDown s t .tripped ∧ t.pow.latched = true ∧
        (DieHot s w → t.pow.trip = 1) ∧ (¬ DieHot s w → t.pow.trip = 2))) ∧
    (s.pow.vin = true → s.pow.rise = true → s.pow.rails = 6 →
      let low := { s.pow with flowLow := true }
      (mget? s.pow.sensors 3 = none → Runs .flowLow s { s with pow := low }) ∧
      ∀ v, mget? s.pow.sensors 3 = some v →
        ∃ t, Runs .flowLow s t ∧ t.pow.flowLow = true ∧ t.pow.base = s.pow.base ∧ t.mem = s.mem ∧ t.cores = s.cores ∧
          (16 * v.toNat ≤ effLimit s.pow → effLimit low < 16 * v.toNat → t.pow.crossed = true) ∧
          (16 * v.toNat ≤ effLimit low → t.pow.crossed = s.pow.crossed))

/-- R540 to R544, R546: the loss and the return of the reference; a PLL that loses lock stops its domains, whose commands
then do nothing, and goes to triage; the press PLL of vat 0 relocks while every press of the vat is stopped, and the
waiting gates open at its end; a wake request opens a stopped domain. It concludes a next state of: referenceLoss,
pllLossOfLock, pressPllRelock, relockEnd, domainWake, referenceReturn. -/
def Obligations.Clocking : Prop :=
  ∀ (s : State),
    (s.pow.vin = true → s.pow.refGone = false → s.pow.rise = true → s.pow.rails = 6 → s.start.mode ≠ .off →
      ∃ t, Runs .referenceLoss s t ∧ t.pow.refGone = true ∧ t.start.mode = .refLost ∧ t.start.stage = 0 ∧ t.refCnt = s.refCnt ∧
        t.meter = s.meter ∧ (s.start.flashWrite = none → t.start.flash = s.start.flash) ∧ t.mem = [] ∧ t.cores = [] ∧
        t.pow.rise = true ∧ t.pow.rails = 6) ∧
    (s.pow.vin = true → s.pow.refGone = false → s.pow.rise = false ∨ s.pow.rails ≠ 6 ∨ s.start.mode = .off →
      Runs .referenceLoss s { s with pow := { s.pow with refGone := true } }) ∧
    (s.pow.vin = false ∨ s.pow.refGone = true → Runs .referenceLoss s s) ∧
    (s.pow.refGone = true → s.start.mode = .refLost →
      ∃ t, Runs .referenceReturn s t ∧ Cold s t ∧ t.pow.refGone = false ∧ t.start.flashChg = false ∧ t.refCnt = 0) ∧
    (s.pow.refGone = true → s.start.mode ≠ .refLost →
      Runs .referenceReturn s
        { s with
          refCnt := 0
          pow := { s.pow with refGone := false, winFrom := 0 }
          start := { s.start with flashChg := false } }) ∧
    (s.pow.refGone = false → Runs .referenceReturn s s) ∧
    (∀ n, 0 < n → n < 36 → s.clk.stat.getLsbD n = true →
      ∃ t f, Runs (.pllLossOfLock n) s t ∧ t.triage.attn = s.triage.attn ++ [f] ∧ f.cls = 0x0C ∧ f.d0 = BitVec.ofNat 64 n ∧
        (∀ k, k < 64 → t.clk.stat.getLsbD k = (s.clk.stat.getLsbD k && decide (k ≠ n))) ∧
        (∀ k, k < 64 → t.clk.lost.getLsbD k = (s.clk.lost.getLsbD k || decide (k = n))) ∧ pllDown t n = true ∧
        (s.triage.attn ≠ [] → t.clk.ovr.getLsbD 2 = true) ∧ { t with clk := s.clk, triage := s.triage } = s) ∧
    (∀ n, n < 36 → n = 0 ∨ s.clk.stat.getLsbD n = false → Runs (.pllLossOfLock n) s s) ∧
    (pllDown s 1 = true → ∀ n m, ∀ i ∈ [Instr.ladleCommandStart n, .ladleBlock n m, .ladleComplete n, .bucketMatchLoad n,
      .bucketStepOpen n, .bucketStepComplete n, .holdWindowExpiry n, .ripenCopy n, .commandStart n, .commandRetire n m,
      .turningPoint, .turningGranule n, .packetInject, .reduceAckTimer n, .activityFrame, .heartbeatTimer,
      .faultLogAppend], Runs i s s) ∧
    (pllDown s 3 = true → ∀ n d, ∀ i ∈ [Instr.heartbeatTimer, .faultLogAppend, .mirrorAckTimeout, .nvmeEnable n d, .jobJoin n],
      Runs i s s) ∧
    (∀ c, c < 256 → pressRuns s c = false → ∀ i ∈ [Instr.pressLoadEnd c, .pressSwap c, .pressRowEntry c], Runs i s s) ∧
    (fullService s = true → s.start.mode = .normal → s.clk.fast = false → s.clk.relock = false →
      (∀ c, c < 64 → (coreOf s c).press.stopped = true) →
      Runs .pressPllRelock s { s with clk := { s.clk with relock := true, stat := s.clk.stat &&& ~~~(0x100 : Dword) } }) ∧
    ((∃ c, c < 64 ∧ (coreOf s c).press.stopped = false) ∨ s.clk.relock = true ∨ s.clk.fast = true ∨ fullService s = false →
      Runs .pressPllRelock s s) ∧
    (s.clk.relock = true →
      ∃ t, Runs .relockEnd s t ∧
        t.clk = { s.clk with relock := false, fast := true, stat := if pllDown s 8 then s.clk.stat else s.clk.stat ||| 0x100 } ∧
        (∀ c, (coreOf s c).press.writes = [] → coreOf t c =
          if c < 64 ∧ ((coreOf s c).press.stopped = false ∨ (coreOf s c).press.wake = true) then
            { coreOf s c with press := { (coreOf s c).press with stopped := false, wake := false } } else coreOf s c) ∧
        { t with clk := s.clk, cores := s.cores } = s) ∧
    (s.clk.relock = false → Runs .relockEnd s s) ∧
    (∀ c, c < 256 → s.clk.relock = false ∨ 64 ≤ c → (coreOf s c).press.stopped = true → (coreOf s c).press.wake = true →
      ∃ t, Runs (.domainWake (.press c)) s t ∧ (coreOf t c).press.stopped = false ∧ (coreOf t c).press.wake = false ∧
        (pllDown s (8 + c / 64) = false → (coreOf t c).press.writes = []) ∧
        (pllDown s (8 + c / 64) = true → (coreOf t c).press.writes = (coreOf s c).press.writes) ∧
        (∀ d, d ≠ c → coreOf t d = coreOf s d) ∧ { t with cores := s.cores } = s) ∧
    (∀ c, c < 64 → s.clk.relock = true → Runs (.domainWake (.press c)) s s) ∧
    (∀ ch, exec (.domainWake (.cave ch)) s = exec (.caveWake ch) s) ∧
    ∀ p, p < 12 → s.start.mode = .normal → (portOf s p).en = true →
      (portOf s p).state = 0 ∨ ((portOf s p).state = 7 ∧ (portOf s p).retrain = true) →
      Runs (.domainWake (.port p)) s
        (modPort s p fun q => { q with state := 1, since := now s, retrain := false, tries := 0 })

/-- R511 to R519, R524, R528: stages 0 to 4. The identity comes from the PUF; firmware that verifies releases the rind, and
other firmware leads to recovery service; RIND_UP takes the configuration in force, or waits for one; early service begins
the training of the enabled ports; full service needs every memory and in each vat 64 passing cores that are not retired. -/
def Sys2Proof.Says.StartStages : Prop :=
  ∀ (s : State), s.start.mode = .normal →
    (∀ puf, s.start.stage = 0 → s.start.warm = false → s.clk.down = 0 →
      let seed := Config.pufSeed puf (flashB s Config.dirHelper Config.dirHelperLen)
      let pub := padB 32 (Config.slhPublic seed)
      ∃ t, Runs (.rennetStage puf) s t ∧ t.start.stage = 1 ∧ t.start.seed = seed ∧ t.start.idPub = pub ∧
        (t.start.idValid = true ↔ pub = flashB s Config.dirKey 32) ∧
        (t.start.fail = if t.start.idValid then 0 else 4) ∧ t.mem = s.mem ∧
        ∀ n ∈ [0, 1, 3], t.clk.stat.getLsbD n = true) ∧
    (∀ puf, s.start.stage = 0 → s.start.warm = true →
      ∃ t, Runs (.rennetStage puf) s t ∧ t.start = { s.start with stage := 1 } ∧ t.mem = s.mem) ∧
    (s.start.stage = 1 → fwInFlash s = none → Runs .firmwareVerify s { s with start := { s.start with mode := .recovery } }) ∧
    (∀ f, s.start.stage = 1 → fwInFlash s = some f →
      Runs .firmwareVerify s
        { s with
          start :=
            { s.start with
              stage := 2
              fwVer := BitVec.ofNat 32 f.ver
              fwDigest := f.digest
              rootPub := f.pub
              released := true
              heartbeat := now s } }) ∧
    (∀ b, s.start.stage = 2 → s.start.released = true → s.start.idValid = true → s.start.up = false → s.start.warm = false →
      (∀ e, cfgFlashCheck s = .error e →
        ∃ t, Runs (.rindUp b) s t ∧ t.start.stage = 5 ∧ t.start.fail = BitVec.ofNat 16 e ∧ t.start.cfg = none ∧
          (s.start.cfg = none → t.mem = s.mem)) ∧
      (∀ f, cfgFlashCheck s = .ok f →
        ∃ t, Runs (.rindUp b) s t ∧ t.start.stage = 2 ∧ t.start.up = true ∧ t.start.cfg = some f ∧
          t.start.stackUp = b.stackUp.setWidth 24 ∧ t.start.flashChg = false ∧ t.start.cfgRet = false ∧
          t.start.fail = if b.stackUp = 0x3F then s.start.fail else 6)) ∧
    (s.start.stage = 2 → s.start.up = true → s.start.warm = false →
      ∃ t, Runs .earlyServiceEntry s t ∧ t.start = { s.start with stage := 3 } ∧
        ∀ p, p < 12 → (portOf t p).state = if (portOf s p).en then 1 else (portOf s p).state) ∧
    (∀ tr, s.start.up = true → s.start.warm = true → s.start.stage = 2 →
      let cores := ∀ v, v < 4 → 64 ≤ ((List.range 66).filter fun p => !s.vatFail.contains (66 * v + p)).length
      let mems := s.start.stackUp = BitVec.allOnes 24 ∧
        (if s.memCtl.srHold then s.start.caveUp else tr.channels) = BitVec.allOnes 16
      (cores → mems → ∃ t, Runs (.fullServiceEntry tr) s t ∧ t.start.stage = 4 ∧ t.start.fail = 0 ∧ t.mem = s.mem) ∧
      (¬ cores → ∃ t, Runs (.fullServiceEntry tr) s t ∧ t.start.stage = 3 ∧ t.start.fail = 5 ∧ t.mem = s.mem) ∧
      (cores → ¬ mems → ∃ t, Runs (.fullServiceEntry tr) s t ∧ t.start.stage = 3 ∧ t.start.fail = 6 ∧ t.mem = s.mem)) ∧
    ∀ tr, s.start.up = true → s.start.warm = false → s.start.stage = 3 →
      let cores := ∀ v, v < 4 →
        64 ≤ ((List.range 66).filter fun p => (tr.bist.getD v 0).getLsbD p && !s.vatFail.contains (66 * v + p)).length
      let mems := tr.stackUp = BitVec.allOnes 24 ∧ tr.channels = BitVec.allOnes 16
      (cores → mems → ∃ t, Runs (.fullServiceEntry tr) s t ∧ t.start.stage = 4 ∧ t.start.fail = 0 ∧ t.mem = s.mem) ∧
      (¬ cores → ∃ t, Runs (.fullServiceEntry tr) s t ∧ t.start.stage = 3 ∧ t.start.fail = 5 ∧ t.mem = s.mem) ∧
      (cores → ¬ mems → ∃ t, Runs (.fullServiceEntry tr) s t ∧ t.start.stage = 3 ∧ t.start.fail = 6 ∧ t.mem = s.mem)

/-- R520 to R523: a waiting start request is taken. A cold one begins the cold sequence; a warm one stops the contexts and,
once what they have issued has ended, begins at stage 0 with
the configuration, flash, faults of the cores and the fault counts kept, the cores' state gone, and the cave kept only
under SR_HOLD. A rind without a heartbeat for 100,000,000 reference ticks asks for a warm start. -/
def Sys2Proof.Says.WarmStarts : Prop :=
  ∀ (s : State), s.start.mode = .normal →
    (s.start.request = none → Runs .warmStartEntry s s) ∧
    (s.start.request = some true → ∃ t, Runs .warmStartEntry s t ∧ Cold s t) ∧
    (s.start.request = some false → workLeft (stoppedAll s) = true → Runs .warmStartEntry s (stoppedAll s)) ∧
    (s.start.request = some false → workLeft (stoppedAll s) = false →
      ∃ t, Runs .warmStartEntry s t ∧ t.start.warm = true ∧ t.start.stage = 0 ∧ t.start.request = none ∧
        t.start.cfg = s.start.cfg ∧ (s.start.flashWrite = none → t.start.flash = s.start.flash) ∧ t.start.idPub = s.start.idPub ∧ t.refCnt = s.refCnt ∧
        t.vatFail = s.vatFail ∧ t.fltCnt = s.fltCnt ∧ t.remap = s.remap ∧ t.cores = [] ∧ t.ladles = [] ∧ t.hubLadles = [] ∧
        (∀ a, 0x080000000000 ≤ a → rdByte t a = 0) ∧
        (s.memCtl.srHold = false → ∀ a, 0x040000000000 ≤ a → rdByte t a = 0) ∧
        ∀ q x, queue? t q = some x → x.cmds = [] ∧ x.slot = false) ∧
    (s.start.released = true → 100000000 ≤ subMod 64 (now s) s.start.heartbeat → s.start.stage = 4 → s.start.request = none →
      ∃ t f, f.cls = 0x0D ∧ Runs .watchdogExpiry s t ∧ t.start = { s.start with request := some false } ∧
        t.triage = { s.triage with attn := s.triage.attn ++ [f] } ∧
        { t with start := s.start, triage := s.triage, clk := s.clk } = s) ∧
    (subMod 64 (now s) s.start.heartbeat < 100000000 → Runs .watchdogExpiry s s)

/-- The stages of a start, and warm starts. It concludes a next state of: rennetStage, firmwareVerify, rindUp,
earlyServiceEntry, fullServiceEntry, warmStartEntry, watchdogExpiry. -/
def Obligations.Starts : Prop := Says.StartStages ∧ Says.WarmStarts

/-! ## Management, scan, sensors, service ports and sessions -/

namespace Sys2Proof.Says

/-- A management connection that is served and has authenticated with the MGMT right (R526, R582, R583). -/
structure Manages (s : State) (n : Nat) : Prop where
  rind : RindRuns s
  served : served s ≠ .nothing
  conn : ∃ c, mget? s.obj.conns n = some c ∧ bitOf c.rights.toNat 2 = true

/-- A management connection that is served and lacks the MGMT right. -/
structure Unproved (s : State) (n : Nat) : Prop where
  rind : RindRuns s
  served : served s = .all
  conn : ∃ c, mget? s.obj.conns n = some c ∧ bitOf c.rights.toNat 2 = false

/-- A status goes to a management connection, and nothing else happens. -/
def Answered (i : Instr) (s : State) (n : Nat) (st : Status) : Prop :=
  Runs i s { s with out := s.out ++ [.status (some n) st] }

/-- Something goes out, and nothing else happens. -/
def Sends (i : Instr) (s : State) (o : Out) : Prop := Runs i s { s with out := s.out ++ [o] }

/-- A service port that works and is not paused: its link is up, and the module is in early or full service (R518, R576,
R594). -/
structure PortServes (s : State) (p : Nat) : Prop where
  link : (mget s.eths {} p).link = 2
  pause : (mget s.eths {} p).pause = none
  stage : s.start.stage = 3 ∨ s.start.stage = 4
  mode : s.start.mode = .normal

/-- A queue pair that works, with its record (R577, R579, R594). -/
structure Works (s : State) (n : Nat) (q : Qp) : Prop where
  hub : HubRuns s
  number : n < 8192
  port : PortServes s (n / 4096)
  qp : mget? s.obj.qps n = some q
  sound : q.error = false

/-- A NAK on a queue pair changes no memory, and an invalid request puts the queue pair into the error state (R577). -/
def Refuses (i : Instr) (s : State) (n : Nat) (k : Nak) : Prop :=
  ∃ t, Runs i s t ∧ t.out = s.out ++ [.nak n k] ∧ t.mem = s.mem ∧
    (k = .invalid → ∀ q, mget? t.obj.qps n = some q → q.error = true)

/-- An RDMA request waits on its queue pair behind those that wait there, and neither memory nor the wire sees it (R328). -/
def Waiting (i : Instr) (s : State) (n : Nat) (q : Qp) (r : RdmaReq) : Prop :=
  ∃ t, Runs i s t ∧ mget? t.obj.qps n = some { q with reqs := q.reqs ++ [r] } ∧ t.out = s.out ∧ t.mem = s.mem

/-- A tick passes for the rind: no command waits, the module has power, its reference and the clocks of hub and rind, and a
flash write is under way (R508, R531). -/
structure FlashTick (s : State) (w : FlashWrite) : Prop where
  rind : RindRuns s
  idle : s.pending = []
  powered : s.pow.vin = true ∧ s.pow.refGone = false
  write : s.start.flashWrite = some w

/-- A flash write has completed: the region holds the image, and the request is answered (R508, R583). -/
def Written (s t : State) (w : FlashWrite) : Prop :=
  step s = .next t ∧ flashB t (regionAt w.region).1 w.img.length = w.img ∧ t.start.flashWrite = none ∧
    Out.status w.conn .ok ∈ t.out

/-- A state with a flash write under way, which a request has begun (R508). -/
def writing (s : State) (region : Nat) (img : Bytes) (conn : Option Nat) : State :=
  { s with start := { s.start with flashWrite := some { region := region, img := img, conn := conn }, flashChg := true } }

end Sys2Proof.Says

/-- R508, R512, R520, R523, R525 to R527, R570, R583, R589, R591: the management port: connections, the right that most
requests need, a cold and a warm start, scan hold, images, attestation, meter and fault records, the unlock token and
self-tests. An image that verifies is written while the module goes on, and the request is answered when the write is
complete; recovery service and configuration wait serve no other request. It concludes a next state of:
recoveryImageWrite, attestReq, imagePut, start, selftest, selftestRun, meterRead, logRead, scanHold, mgmtConnect,
debugTokenLoad. -/
def Obligations.ManagementPort : Prop :=
  ∀ (s : State) (n : Nat),
    (RindRuns s → served s ≠ .nothing → (∀ k, k < n → (mget? s.obj.conns k).isSome = true) → mget? s.obj.conns n = none → n < 4 →
      Runs .mgmtConnect s
        (modObj s fun o => { o with conns := mput o.conns n { ips := mgmtIps s, since := now s, hello := none, rights := 0 } })) ∧
    (RindRuns s → served s ≠ .nothing → (∀ k, k < 4 → (mget? s.obj.conns k).isSome = true) → Sends .mgmtConnect s (.refused 4)) ∧
    (Unproved s n →
      (∀ kind, Answered (.start n kind) s n .notPermitted) ∧ Answered (.scanHold n) s n .notPermitted ∧
      (∀ seq, Answered (.meterRead n seq) s n .notPermitted) ∧ (∀ seq, Answered (.logRead n seq) s n .notPermitted) ∧
      (∀ x, Answered (.selftest (some n) x) s n .notPermitted) ∧
      ∀ region img, Answered (.imagePut n region img) s n .notPermitted) ∧
    (RindRuns s → served s = .recovery ∨ served s = .configWait → (mget? s.obj.conns n).isSome = true →
      (∀ kind, Answered (.start n kind) s n .notPermitted) ∧ Answered (.scanHold n) s n .notPermitted ∧
      (∀ seq, Answered (.meterRead n seq) s n .notPermitted) ∧ (∀ seq, Answered (.logRead n seq) s n .notPermitted) ∧
      (∀ x, Answered (.selftest (some n) x) s n .notPermitted) ∧
      (∀ pub sig, Answered (.debugTokenLoad n pub sig) s n .notPermitted) ∧
      ∀ region img, (served s = .recovery → region ≠ 1) → (served s = .configWait → region ≠ 2 ∧ region ≠ 3) →
        Answered (.imagePut n region img) s n .notPermitted) ∧
    (Manages s n → s.start.mode = .normal → s.start.stage = 4 → s.start.request = none → s.start.flashWrite = none →
      (∃ t, Runs (.start n 1) s t ∧ Cold s t ∧ t.out = s.out ++ [.status (some n) .ok]) ∧
      Runs (.start n 2) s
        { s with start := { s.start with request := some false }, out := s.out ++ [.status (some n) .ok] } ∧
      (∀ kind, kind ≠ 1 → kind ≠ 2 → Answered (.start n kind) s n .descInvalid) ∧
      (∃ t, Runs (.scanHold n) s t ∧ t.start.mode = .scanHold ∧ t.out.getLast? = some (.status (some n) .ok) ∧
        ∀ p, portActive t p = false) ∧
      (∀ img, (fwInMem img).isSome = true → Runs (.imagePut n 1 img) s (writing s 1 img (some n))) ∧
      (∀ img f, cfgCheck s img = .ok f → Runs (.imagePut n 2 img) s (writing s 2 img (some n))) ∧
      (∀ img, fwInMem img = none → Answered (.imagePut n 1 img) s n .descInvalid) ∧
      (∀ seq, meterState s.meter ≠ 1 → s.meter.powered = true → 0 < seq → seq ≤ s.meter.head.toNat →
        s.meter.head.toNat < seq + 256 →
        ∃ t, Runs (.meterRead n seq) s t ∧ t.meter = { s.meter with readSeq := s.meter.head } ∧ t.mem = s.mem ∧
          t.out = s.out ++ ((List.range (s.meter.head.toNat + 1 - seq)).filterMap fun i =>
            (mget? s.meter.ring ((seq + i) % 256)).map fun b => .mgmt (some n) 0x23 b) ++ [.status (some n) .ok]) ∧
      (∀ seq, meterState s.meter = 1 ∨ seq = 0 ∨ s.meter.head.toNat < seq → Answered (.meterRead n seq) s n .notFound) ∧
      (∀ seq, ∃ b, Runs (.logRead n seq) s
        { s with out := s.out ++ [.mgmt (some n) 0x24 b] ++ [.status (some n) .ok] }) ∧
      (∀ c im, 256 ≤ c → Answered (.selftest (some n) ⟨.pressBist c, im⟩) s n .descInvalid) ∧
      (∀ c im, c < 256 → (coreOf s c).ctx = none →
        ∃ t p, Runs (.selftest (some n) ⟨.wheyBist c, im⟩) s t ∧
          t.out = s.out ++ [.selftest c p] ++ [.status (some n) .ok] ∧ t.freeIx = s.freeIx + 1) ∧
      ∀ im, meterState s.meter ≠ 3 → Answered (.selftest (some n) ⟨.meterCal, im⟩) s n .notPermitted) ∧
    (∀ c pass p r rest, RindRuns s → c < 256 → s.tests.find? (fun t => t.1 == c) = some (c, p, r, rest) →
      ∃ t, Runs (.selftestRun c pass) s t ∧ t.out = s.out ++ [.selftest c pass] ∧ t.tests = s.tests.erase (c, p, r, rest) ∧
        (pass = true → t.vatFail = s.vatFail) ∧ (pass = false → p ∈ t.vatFail) ∧ t.mem = s.mem) ∧
    (RindRuns s → s.start.mode = .recovery → s.start.flashWrite = none → ∀ img,
      ((fwInMem img).isSome = true → Runs (.recoveryImageWrite img) s (writing s 1 img none)) ∧
      (fwInMem img = none → Sends (.recoveryImageWrite img) s (.status none .descInvalid))) ∧
    (∀ w, FlashTick s w →
      (served s = .all → ∃ t, Written s t w) ∧
      (served s = .recovery → ∃ t, Written s t w ∧ t.start.mode = .normal ∧ t.start.stage = 0) ∧
      (served s = .configWait → ∃ t, Written s t w ∧ t.start.stage = 2 ∧ t.start.cfg = none)) ∧
    (RindRuns s → served s ≠ .nothing → ∀ x, Sends (.attestReq x) s (.mgmt none 0x11 (attestRecord s x)) ∧
      (s.start.idValid = true →
        (attestRecord s x).drop 0xC0 = padB 7856 (Config.slhSign s.start.seed ((attestRecord s x).take 0xC0))) ∧
      ∀ k, k < 32 → (attestRecord s x).getD (8 + k) 0 = x.getD k 0) ∧
    ∀ c pub sig, RindRuns s → served s = .all → mget? s.obj.conns n = some c →
      (sha256 pub = Config.debugKeyHash → Config.slhVerify pub (leBytes 8 (serialOf s)) sig = true →
        Runs (.debugTokenLoad n pub sig) s
          { s with start := { s.start with debugUnlock := true }, out := s.out ++ [.status (some n) .ok] }) ∧
      (sha256 pub ≠ Config.debugKeyHash → Answered (.debugTokenLoad n pub sig) s n .descInvalid)

/-- R588 to R590, R592, R593, R610: JTAG captures and the sensor port: what each transfer returns, what it clears, and the
alert. It concludes a next state of: bypass, idcode, samplePreload, extest, smbusReadSensor, smbusReadStatus,
smbusAlertMask, smbusIdentityRead, smbusAlertResponse, sensorLimitCross. -/
def Obligations.ScanAndSensors : Prop :=
  ∀ (s : State),
    let scans := fun (i : Instr) (cells : Bytes) (drive : Bool) => ∃ b : Bytes, b.length = 161 ∧
      b.getD 155 0 = (if s.pow.alert then 0 else 1) ∧
      (∀ i, i < 3 → b.getD (158 + i) 0 = if s.pow.pos.getLsbD i then 1 else 0) ∧
      (∀ l, l < 4 → s.extest = false → s.start.mode ≠ .scanHold →
        b.getD (136 + l) 0 = if (mget s.pcies {} l).perstLow then 0 else 1) ∧
      Runs i s
        { s with
          bscan := (b ++ cells).drop cells.length
          extest := drive
          freeIx := s.freeIx + 161
          out := s.out ++ [.jtag ((b ++ cells).take cells.length)] }
    (s.pow.rise = true → s.pow.rails = 6 → s.start.mode ≠ .off →
      Runs .bypass s { s with extest := false, out := s.out ++ [.jtag [0]] } ∧
      (∃ w : Word, Runs .idcode s { s with extest := false, out := s.out ++ [.jtag (leBytes 4 w.toNat)] } ∧
        w.getLsbD 0 = true ∧ fld w.toNat 27 12 = 0xD4A1 ∧
        fld w.toNat 11 1 = Config.jedecCode.toNat ∧ fld w.toNat 31 28 = Config.siliconRevision.toNat) ∧
      (∀ cells, scans (.samplePreload cells) cells false) ∧
      (s.start.mode ≠ .scanHold → ∀ cells,
        Runs (.extest cells) s { s with extest := false, out := s.out ++ [.jtag [0]] })) ∧
    (s.start.mode = .scanHold → ∀ cells, scans (.extest cells) cells true) ∧
    (s.pow.rise = false ∨ s.pow.rails ≠ 6 ∨ s.start.mode = .off → Runs .bypass s s ∧ Runs .idcode s s ∧
      ∀ cells, Runs (.samplePreload cells) s s) ∧
    (s.pow.vin = true →
      (∀ n, 64 ≤ n → Sends (.smbusReadSensor n) s .smbusNack) ∧
      (∀ n, n < 64 → sensorFitted n = false → Sends (.smbusReadSensor n) s (.smbus [0x00, 0x80])) ∧
      (∀ n v, sensorFitted n = true → mget? s.pow.sensors n = some v →
        Sends (.smbusReadSensor n) s (.smbus [v.setWidth 8, (v >>> 8).setWidth 8])) ∧
      (∀ x, Runs (.smbusReadStatus x) s
        { s with
          out := s.out ++ [.smbus [BitVec.ofNat 8 (s.pow.alert.toNat + 2 * s.pow.crossed.toNat)]]
          pow := { s.pow with crossed := x } }) ∧
      (∀ p, Sends (.smbusAlertMask none p) s (.smbus [s.pow.alertMask.setWidth 8, (s.pow.alertMask >>> 8).setWidth 8])) ∧
      (∀ v, Runs (.smbusAlertMask (some v) true) s { s with pow := { s.pow with alertMask := v } }) ∧
      (∀ v, Sends (.smbusAlertMask (some v) false) s .smbusNack) ∧
      Sends .smbusIdentityRead s
        (.smbus (leBytes 8 (serialOf s) ++ [0x45, 0x44, 0x58, 0x34, 0x2D, 0x41, 0x31, 0x00])) ∧
      (s.pow.alert = true → Runs .smbusAlertResponse s
        { s with out := s.out ++ [.smbus [0x48 + s.pow.pos.setWidth 8]], pow := { s.pow with alert := false } }) ∧
      (s.pow.alert = false → Runs .smbusAlertResponse s s) ∧
      ∀ n v, n < 64 → sensorFitted n = true →
        ∃ t, Runs (.sensorLimitCross n v) s t ∧ mget? t.pow.sensors n = some v ∧ t.mem = s.mem ∧
          (beyond (effLimit s.pow) n v = true → t.pow.crossed = true ∧
            (n < 16 → s.pow.alertMask.getLsbD n = true → s.start.mode ≠ .scanHold →
              t.pow.alert = true ∧ t.out = s.out ++ [.alert]) ∧
            (s.start.mode = .scanHold → t.pow.alert = s.pow.alert)) ∧
          (beyond (effLimit s.pow) n v = false → t.pow.crossed = s.pow.crossed ∧ t.out = s.out))

/-- R575 to R577, R579, R584, R594: frames and pauses at a service port, its link, and the connection and disconnection of
queue pairs. A packet with CE set draws a CNP, at most one in 5,000 ticks for its queue pair; packets wait while the
lossless priority is paused. It concludes a next state of: ethFrameReceive, pfcPauseReceive, cmReq, cmDreq, ethLinkUp,
ethLinkDown. -/
def Obligations.ServicePorts : Prop :=
  ∀ (s : State) (p : Nat), p < 2 →
    let e := mget s.eths {} p
    let counts := fun (f : EthFrame) (lo : Nat) => ∃ t, Runs (.ethFrameReceive p f) s t ∧ { t with eths := s.eths } = s ∧
      fld (mget t.eths {} p).cnt.toNat (lo + 15) lo = min (fld e.cnt.toNat (lo + 15) lo + 1) 0xFFFF
    (e.link ≠ 2 → ∀ f, Runs (.ethFrameReceive p f) s s) ∧
    (HubRuns s → e.link = 2 → ∀ f,
      (f.fcsOk = false → counts f 48) ∧
      (f.fcsOk = true → f.proto = .other ∨ 9216 < f.len ∨ f.vlan.toNat ≠ (netCfg s).vlan.getD p 0 ∨
        ((f.dst.getD 0 0).getLsbD 0 = false ∧ f.dst ≠ macOf s p) → counts f 0) ∧
      (f.fcsOk = true → forPort s p f = true →
        (∀ r, f.proto = .routerAdvert r true → ∃ t, Runs (.ethFrameReceive p f) s t ∧ { t with eths := s.eths } = s ∧
          r ∈ (mget t.eths {} p).routers) ∧
        (∀ r, f.proto = .routerAdvert r false → ∃ t, Runs (.ethFrameReceive p f) s t ∧ { t with eths := s.eths } = s ∧
          r ∉ (mget t.eths {} p).routers) ∧
        (f.proto = .arp → Runs (.ethFrameReceive p f) s s) ∧
        (∀ n, PortServes s p → f.proto = .roce n true true →
          ((mget? e.cnps n = none ∨ ∃ x, mget? e.cnps n = some x ∧ 5000 ≤ subMod 64 (now s) x) →
            ∃ t, Runs (.ethFrameReceive p f) s t ∧ t.out = s.out ++ [.cnp n (netCfg s).cnpDscp] ∧
              mget? (mget t.eths {} p).cnps n = some (now s) ∧ t.obj = s.obj ∧ t.mem = s.mem) ∧
          (∀ x, mget? e.cnps n = some x → subMod 64 (now s) x < 5000 → Runs (.ethFrameReceive p f) s s)) ∧
        (∀ n, f.proto = .roce n false true → Runs (.ethFrameReceive p f) s s) ∧
        ∀ n q, Works s n q → f.proto = .roce n false false →
          (n / 4096 = p → Refuses (.ethFrameReceive p f) s n .invalid) ∧ (n / 4096 ≠ p → Runs (.ethFrameReceive p f) s s))) ∧
    (HubRuns s → e.link = 2 → (netCfg s).pfcOn = true → ∀ f : PfcFrame, f.prio = (netCfg s).pfcPrio →
      (f.quanta = 0 → ∃ t, Runs (.pfcPauseReceive p f) s t ∧ t.out = s.out ++ e.txq ∧
        mget t.eths {} p = { e with pfcRx := true, pause := none, txq := [] }) ∧
      (f.quanta ≠ 0 → Runs (.pfcPauseReceive p f) s
        (modEth s p fun e => { e with pfcRx := true, pause := some (now s, (512 * f.quanta.toNat + 7999) / 8000) }))) ∧
    (∀ f : PfcFrame, e.link ≠ 2 ∨ (netCfg s).pfcOn = false ∨ f.prio ≠ (netCfg s).pfcPrio → Runs (.pfcPauseReceive p f) s s) ∧
    (s.start.mode = .normal → Runs (.ethLinkUp p) s (modEth s p fun e => { e with link := 2 })) ∧
    Runs (.ethLinkDown p) s (modEth s p fun e => { e with link := 0, pause := none, txq := [] }) ∧
    ∀ n, n < 8192 → RindRuns s → PortServes s (n / 4096) →
      (∀ r, (mget? s.obj.qps n).isSome = true → Sends (.cmReq n r) s (.cmRej n)) ∧
      (∀ r : CmRequest, r.transport ≠ .rc ∨ r.mtu ∉ [1024, 2048, 4096] ∨ 16 < r.resources → Sends (.cmReq n r) s (.cmRej n)) ∧
      (∀ r : CmRequest, mget? s.obj.qps n = none → r.transport = .rc → r.mtu ∈ [1024, 2048, 4096] → r.resources ≤ 16 →
        ((∀ b ∈ r.priv, b = 0) →
          ∃ t q, Runs (.cmReq n r) s t ∧ mget? t.obj.qps n = some q ∧ q.sess = none ∧ q.since = now s ∧ q.error = false ∧
            q.mtu = r.mtu ∧ q.peer = r.peer ∧ t.out = s.out ++ [.cmRep n] ∧ t.obj.sess = s.obj.sess ∧ t.mem = s.mem) ∧
        ((∃ b ∈ r.priv, b ≠ 0) → resolve s .session (leVal (sliceB r.priv 0 4)) = none → Sends (.cmReq n r) s (.cmRej n)) ∧
        ∀ i k, (∃ b ∈ r.priv, b ≠ 0) → resolve s .session (leVal (sliceB r.priv 0 4)) = some i → sess? s i = some k →
          (20 ≤ r.priv.length → sliceB r.priv 4 16 = k.ticket → k.qps.length < 16 →
            ∃ t q y, Runs (.cmReq n r) s t ∧ mget? t.obj.qps n = some q ∧ q.sess = some i ∧ sess? t i = some y ∧
              y.qps = k.qps ++ [n] ∧ t.out = s.out ++ [.cmRep n] ∧ t.mem = s.mem) ∧
          (r.priv.length < 20 ∨ sliceB r.priv 4 16 ≠ k.ticket ∨ 16 ≤ k.qps.length → Sends (.cmReq n r) s (.cmRej n))) ∧
      ((mget? s.obj.qps n).isSome = true →
        ∃ t, Runs (.cmDreq n) s t ∧ mget? t.obj.qps n = none ∧ t.out = s.out ++ [.cmDrep n] ∧ t.mem = s.mem ∧
          ∀ i k, sess? s i = some k → ∃ y, sess? t i = some y ∧ y.ticket = k.ticket)

/-- R466, R467, R498, R526, R579, R580, R583: HELLO draws a challenge; a PROOF of a configured client opens a session with
its admin queue, or authenticates a management connection, and any other is refused and disconnected; CLOSE and the
end of the lease end a session; and a handshake ends 100,000,000 ticks after it began. It concludes a next state of:
hello, proof, close, handshakeTimeout, leaseExpiry. -/
def Obligations.Sessions : Prop :=
  ∀ (s : State) (n : Nat) (q : Qp), Works s n q → RindRuns s →
    (∀ pub params, q.sess = none → q.closed = false → q.hello = none →
      ∃ t y, Runs (.hello (.qp n) pub params) s t ∧ mget? t.obj.qps n = some y ∧
        y.hello = some (pub, params, padB 32 (Config.nonce s.obj.nonces)) ∧
        t.out = s.out ++ [.ack n, .send n 2 (padB 32 (Config.nonce s.obj.nonces))] ∧ t.obj.nonces = s.obj.nonces + 1 ∧
        t.mem = s.mem) ∧
    (∀ pub params, q.sess.isSome = true ∨ q.closed = true ∨ q.hello.isSome = true →
      Runs (.hello (.qp n) pub params) s
        { s with out := s.out ++ [.ack n, .send n 4 (leBytes 2 0x10 ++ leBytes 2 0 ++ leBytes 4 0 ++ padB 16 [])] }) ∧
    (∀ h sig r, q.sess = none → q.closed = false → q.hello = some h → ringPlaced s r = true →
      (clientOf s h.1 = none →
        ∃ t, Runs (.proof (.qp n) sig r) s t ∧ mget? t.obj.qps n = none ∧ t.obj.sess = s.obj.sess ∧ t.mem = s.mem ∧
          t.out.getLast? = some (.disconnect (.qp n))) ∧
      (∀ cl have_, clientOf s h.1 = some (cl, have_) →
        (Config.slhVerify h.1 (h.2.2 ++ leBytes 8 h.2.1.toNat) sig = false →
          ∃ t, Runs (.proof (.qp n) sig r) s t ∧ mget? t.obj.qps n = none ∧ t.obj.sess = s.obj.sess ∧ t.mem = s.mem) ∧
        (∀ i j, Config.slhVerify h.1 (h.2.2 ++ leBytes 8 h.2.1.toNat) sig = true → have_.getLsbD 0 = true →
          s.obj.sess.length < 1024 → nextIdx s .session = some i → nextIdx s .queue = some j →
          ∃ t k x y, Runs (.proof (.qp n) sig r) s t ∧ sess? t i = some k ∧ k.client = cl ∧
            k.rights = BitVec.ofNat 3 h.2.1.toNat &&& have_ ∧ k.renewed = now s ∧ k.admin = j ∧ k.qps = [n] ∧
            queue? t j = some x ∧ x.state = 2 ∧ x.ctx = none ∧ x.sess = i ∧ x.ring = r.ring ∧ x.cpl = r.cpl ∧ x.cmds = [] ∧
            mget? t.obj.qps n = some y ∧ y.sess = some i ∧ t.mem = s.mem))) ∧
    (q.sess = none → Runs (.close n) s
      { s with out := s.out ++ [.ack n, .send n 4 (leBytes 2 0x10 ++ leBytes 2 0 ++ leBytes 4 0 ++ padB 16 [])] }) ∧
    (∀ i k, q.sess = some i → sess? s i = some k → (∀ x y, ctx? s x = some y → y.state = 1 ∨ y.state = 2) →
      ∃ t, Runs (.close n) s t ∧ sess? t i = none ∧ ∀ x y, ctx? t x = some y → y.sess = i → y.state = 2) ∧
    (∀ i k, i < 1024 → sess? s i = some k →
      (subMod 64 (now s) k.renewed < 200000000 → Runs (.leaseExpiry i) s s) ∧
      (200000000 ≤ subMod 64 (now s) k.renewed → ∃ t, Runs (.leaseExpiry i) s t ∧ sess? t i = none)) ∧
    (q.sess = none → q.closed = false → 100000000 ≤ subMod 64 (now s) q.since →
      ∃ t, Runs (.handshakeTimeout (.qp n)) s t ∧ mget? t.obj.qps n = none ∧ t.out = s.out ++ [.disconnect (.qp n)] ∧
        t.mem = s.mem) ∧
    (subMod 64 (now s) q.since < 100000000 → Runs (.handshakeTimeout (.qp n)) s s)

/-- R168, R283, R287, R296, R328, R495, R577, R580: RDMA on a queue pair. Memory that the key opens for the operation is
read, written or changed by one atomic of 8 bytes, and every other byte stands; a WRITE lands in blocks of 64 bytes,
in no fixed order, and is acknowledged once all of them have landed (`land` says which land first); anything else gets
a NAK and changes no memory; a request that memory does not yet take waits, and the requests after it wait behind it
in message order. A SEND with a HELLO draws the challenge, one with a CLOSE ends the session of its queue pair, and
one with a reserved TYPE opens nothing. It concludes a next state of: rdmaWrite, rdmaRead, compareAndSwap,
fetchAndAdd, rdmaSend. -/
def Obligations.RdmaOperations : Prop :=
  ∀ (s : State) (n : Nat) (q : Qp), Works s n q →
    (∀ (key : Word) (a : Nat), q.reqs = [] → q.blocks = none → fld key.toNat 31 28 ≠ 2 →
      (∀ bs, bs.length ≤ 2 ^ 31 → rdmaOk s q key.toNat a bs.length 1 = true → writeWaits s a bs.length = false →
        ∃ (t : State) (land : Nat → Bool), Runs (.rdmaWrite n key a bs) s t ∧
          (∀ x, x < a ∨ a + bs.length ≤ x → rdByte t x = rdByte s x) ∧
          (∀ j v, bs[j]? = some v → rdByte t (a + j) = if land ((a + j) / 64) then v else rdByte s (a + j)) ∧
          (bs ≠ [] → ∃ j, j < bs.length ∧ land ((a + j) / 64) = true) ∧
          ((∀ j, j < bs.length → land ((a + j) / 64) = true) → t.out = s.out ++ [.ack n]) ∧
          ((∃ j, j < bs.length ∧ land ((a + j) / 64) = false) → t.out = s.out ∧
            mget? t.obj.qps n = some { q with
              reqs := [.write key a bs]
              blocks := some ((writeBlocks a bs).filter fun w => !land (w.addr / 64)) })) ∧
      (∀ bs, bs.length ≤ 2 ^ 31 → rdmaOk s q key.toNat a bs.length 1 = false → Refuses (.rdmaWrite n key a bs) s n .access) ∧
      (∀ bs, 2 ^ 31 < bs.length → Refuses (.rdmaWrite n key a bs) s n .invalid) ∧
      (∀ len, len ≤ 2 ^ 31 → rdmaOk s q key.toNat a len 0 = true →
        (asleep s a len = false → isBad s a len = false → q.bad = false → Sends (.rdmaRead n key a len) s (.readData n (rdBytes s a len))) ∧
        (asleep s a len = false → isBad s a len = true ∨ q.bad = true → Refuses (.rdmaRead n key a len) s n .operational) ∧
        (asleep s a len = true → Waiting (.rdmaRead n key a len) s n q (.read key a len))) ∧
      (∀ len, len ≤ 2 ^ 31 → rdmaOk s q key.toNat a len 0 = false → Refuses (.rdmaRead n key a len) s n .access) ∧
      (∀ x y, a % 8 ≠ 0 →
        Refuses (.compareAndSwap n key a x y) s n .invalid ∧ Refuses (.fetchAndAdd n key a x) s n .invalid) ∧
      (∀ x y, a % 8 = 0 → rdmaOk s q key.toNat a 8 2 = false →
        Refuses (.compareAndSwap n key a x y) s n .access ∧ Refuses (.fetchAndAdd n key a x) s n .access) ∧
      (∀ x y, a % 8 = 0 → rdmaOk s q key.toNat a 8 2 = true → asleep s a 8 = false → isBad s a 8 = true →
        Refuses (.compareAndSwap n key a x y) s n .operational ∧ Refuses (.fetchAndAdd n key a x) s n .operational) ∧
      (a % 8 = 0 → rdmaOk s q key.toNat a 8 2 = true → asleep s a 8 = false → isBad s a 8 = false → q.bad = false →
        let old := rdNum s a 8
        (∀ x y : Dword, old = x.toNat → writeHeld s a 8 = false →
          ∃ t, Runs (.compareAndSwap n key a x y) s t ∧ rdNum t a 8 = y.toNat ∧
            t.out = s.out ++ [.atomicOld n x] ∧ ∀ b, b < a ∨ a + 8 ≤ b → rdByte t b = rdByte s b) ∧
        (∀ x y : Dword, old ≠ x.toNat → Sends (.compareAndSwap n key a x y) s (.atomicOld n (BitVec.ofNat 64 old))) ∧
        ∀ x : Dword, writeHeld s a 8 = false → ∃ t, Runs (.fetchAndAdd n key a x) s t ∧
          rdNum t a 8 = (old + x.toNat) % 2 ^ 64 ∧ t.out = s.out ++ [.atomicOld n (BitVec.ofNat 64 old)] ∧
          ∀ b, b < a ∨ a + 8 ≤ b → rdByte t b = rdByte s b)) ∧
    (∀ (k : Word) (b len : Nat) (rest : List RdmaReq), q.reqs = .read k b len :: rest → fld k.toNat 31 28 ≠ 2 →
      len ≤ 2 ^ 31 → rdmaOk s q k.toNat b len 0 = true → asleep s b len = true → (q.reqs.filter takesResource).length < 16 →
      ∀ (key : Word) (a : Nat),
        (∀ bs, Waiting (.rdmaWrite n key a bs) s n q (.write key a bs)) ∧
        (∀ m, Waiting (.rdmaRead n key a m) s n q (.read key a m)) ∧
        (∀ x y, Waiting (.compareAndSwap n key a x y) s n q (.swap key a x y)) ∧
        ∀ x, Waiting (.fetchAndAdd n key a x) s n q (.add key a x)) ∧
    (16 ≤ (q.reqs.filter takesResource).length → ∀ (key : Word) (a : Nat),
      (∀ m, Refuses (.rdmaRead n key a m) s n .invalid) ∧ (∀ x y, Refuses (.compareAndSwap n key a x y) s n .invalid) ∧
      ∀ x, Refuses (.fetchAndAdd n key a x) s n .invalid) ∧
    (∀ pub params, pub.length = 32 → q.sess = none → q.closed = false → q.hello = none →
      ∃ t y, Runs (.rdmaSend n ([1, 0, 0, 0] ++ leBytes 4 40 ++ pub ++ leBytes 8 params.toNat)) s t ∧
        mget? t.obj.qps n = some y ∧ y.hello = some (pub, params, padB 32 (Config.nonce s.obj.nonces)) ∧
        t.out = s.out ++ [.ack n, .send n 2 (padB 32 (Config.nonce s.obj.nonces))] ∧ t.obj.nonces = s.obj.nonces + 1 ∧
        t.mem = s.mem) ∧
    (∀ i k, q.sess = some i → sess? s i = some k → (∀ x y, ctx? s x = some y → y.state = 1 ∨ y.state = 2) →
      ∃ t, Runs (.rdmaSend n [5, 0, 0, 0, 0, 0, 0, 0]) s t ∧ sess? t i = none ∧
        ∀ x y, ctx? t x = some y → y.sess = i → y.state = 2) ∧
    (∀ msg, 2 ^ 31 < msg.length → Refuses (.rdmaSend n msg) s n .invalid) ∧
    ∀ ty body, ty ≠ 1 → ty ≠ 3 → ty ≠ 5 → body.length + 8 ≤ 2 ^ 31 →
      Runs (.rdmaSend n ([ty, 0, 0, 0] ++ leBytes 4 body.length ++ body)) s
        { s with out := s.out ++ [.ack n, .send n 4 (leBytes 2 0x10 ++ leBytes 2 0 ++ leBytes 4 0 ++ padB 16 [])] }

/-! ## Queues and objects -/

namespace Sys2Proof.Says

/-- Address of the completion record of the next command that retires (R480). -/
def cplAt (x : Queue) : Nat := x.cpl + 16 * (x.ri.toNat % 2 ^ x.k)

/-- A command of a queue that names no fence and no object, while no command of any queue waits for a fence, no turning is
copied, and the place of its completion record is in HBM and takes writes. -/
structure Simple (s : State) (q : Nat) (x : Queue) (c : Cmd) : Prop where
  hub : HubRuns s
  queue : queue? s q = some x
  alive : x.state ≠ 3
  once : (x.cmds.map fun d => d.seq).Nodup
  among : c ∈ x.cmds
  undone : c.st = none
  plain : eWaitEn c.entry = false ∧ eSigFence c.entry = 0 ∧ eNobj c.entry = 0
  free : c.slot = false ∧ c.waits = false
  unwaited : ∀ r y, queue? s r = some y → ∀ d ∈ y.cmds, eWaitEn d.entry = false
  still : s.turn.run = none
  place : regionOf (cplAt x) = .hbm
  room : writeWaits s (cplAt x) 16 = false

/-- The command of an admin queue that the object sequencer performs next (R479, R482). -/
structure AdminNext (s : State) (q : Nat) (x : Queue) (c : Cmd) (opc : Nat) : Prop where
  simple : Simple s q x c
  admin : x.ctx = none
  head : startable s x = some c
  op : eOpc c.entry = opc

/-- A command has retired: its completion record holds its number, its status with the phase bit and its result, RI has
moved on and the command is gone (R480). -/
def Finished (t : State) (q : Nat) (x : Queue) (c : Cmd) (st : Status) (res : Nat) : Prop :=
  rdNum t (cplAt x) 8 = putFld c.seq 32 32 + putFld st.code 16 16 + (c.seq / 2 ^ x.k + 1) % 2 ∧
  rdNum t (cplAt x + 8) 8 = res % 2 ^ 64 ∧
  ∃ y, queue? t q = some y ∧ y.ri = x.ri + 1 ∧ ∀ d ∈ y.cmds, d.seq ≠ c.seq

/-- A command has retired with a status of refusal: no object has changed, no other queue, and no byte but those of the
completion record. -/
def Refused (i : Instr) (s : State) (q : Nat) (x : Queue) (c : Cmd) (st : Status) : Prop :=
  ∃ t, Runs i s t ∧ Finished t q x c st 0 ∧ t.obj.ctxs = s.obj.ctxs ∧ t.obj.mems = s.obj.mems ∧
    t.obj.fences = s.obj.fences ∧ t.obj.sess = s.obj.sess ∧ (∀ r, r ≠ q → queue? t r = queue? s r) ∧
    MemStands s t (cplAt x) 16

/-- The admin operations whose body names a context first (R482). -/
def onContexts : List (Nat × (Nat → Instr)) :=
  [(0x21, .ctxDestroy), (0x22, .queueCreate), (0x24, fun q => .memAlloc q none), (0x25, .memFree), (0x26, .share),
   (0x27, .fenceCreate), (0x28, .fenceDestroy)]

/-- A context of the session that issues an admin command, named by the first handle of the body. -/
structure OwnCtx (s : State) (x : Queue) (c : Cmd) (i : Nat) (k : Context) : Prop where
  names : resolve s .context (fld (eBody c.entry 0) 31 0) = some i
  context : ctx? s i = some k
  own : k.sess = x.sess

end Sys2Proof.Says

/-- R467, R470, R478, R479, R491, R493, R495: a doorbell renews the lease and admits the commands up to its index, or is
dropped and counted; an agent that may not reach it is refused; slots are taken and given up; and an index leaves
quarantine. It concludes a next state of: qdbLease, doorbell, quarantineEnd, slotEvict, slotTake. -/
def Obligations.Doorbells : Prop :=
  ∀ (s : State) (who : Agent) (q : Nat) (x : Queue), HubRuns s → q < 16384 → queue? s q = some x →
    (∀ k, bellOpen s who q = true → sess? s x.sess = some k →
      Runs (.qdbLease who q) s
        { s with obj := { s.obj with sess := mput s.obj.sess x.sess { k with renewed := now s } } }) ∧
    (∀ n, bellOpen s (.client n) q = false → (mget s.eths {} (n / 4096)).pause = none → Refuses (.qdbLease (.client n) q) s n .access ∧
      ∀ v, Refuses (.doorbell (.client n) q v) s n .access) ∧
    (∀ c i k v, bellOpen s (.program c) q = false → (coreOf s c).ctx = some i → ctx? s i = some k → k.state = 1 →
      k.dying = false → ∃ t, Runs (.doorbell (.program c) q v) s t ∧ LostWith t i .addressFault c) ∧
    (∀ v : Dword, bellOpen s who q = true → x.gen.toNat ≠ fld v.toNat 63 56 ∨ x.state = 3 →
      ∃ t, Runs (.doorbell who q v) s t ∧ queue? t q = some x ∧ t.mem = s.mem ∧
        fld t.obj.drop.toNat 63 48 = min (fld s.obj.drop.toNat 63 48 + 1) 0xFFFF) ∧
    (∀ v : Dword, bellOpen s who q = true → x.gen.toNat = fld v.toNat 63 56 → x.state ≠ 3 → x.slot = false →
      ∃ t, Runs (.doorbell who q v) s t ∧ queue? t q = some { x with bell := some (BitVec.ofNat 32 v.toNat) } ∧ t.mem = s.mem) ∧
    (∀ v : Dword, bellOpen s who q = true → x.gen.toNat = fld v.toNat 63 56 → x.state ≠ 3 → x.slot = true →
      let pi := fld v.toNat 31 0
      (2 ^ 31 ≤ subMod 32 pi x.adm.toNat → ∃ t, Runs (.doorbell who q v) s t ∧ queue? t q = some x ∧ t.mem = s.mem ∧
        fld t.obj.drop.toNat 63 48 = min (fld s.obj.drop.toNat 63 48 + 1) 0xFFFF) ∧
      (subMod 32 pi x.adm.toNat < 2 ^ 31 → 2 ^ x.k < subMod 32 pi x.ri.toNat →
        ∃ t, Runs (.doorbell who q v) s t ∧ queue? t q = some x ∧ t.mem = s.mem ∧
          fld t.obj.drop.toNat 47 32 = min (fld s.obj.drop.toNat 47 32 + 1) 0xFFFF) ∧
      (subMod 32 pi x.adm.toNat = 0 → subMod 32 pi x.ri.toNat ≤ 2 ^ x.k →
        ∃ t, Runs (.doorbell who q v) s t ∧ queue? t q = some x ∧ t.mem = s.mem ∧ t.obj.drop = s.obj.drop) ∧
      (subMod 32 pi x.adm.toNat = 1 → subMod 32 pi x.ri.toNat ≤ 2 ^ x.k → x.cmds = [] →
        let e := rdBytes s (x.ring + 128 * (x.adm.toNat % 2 ^ x.k)) 128
        admitStatus s x (x.ring + 128 * (x.adm.toNat % 2 ^ x.k)) e = none → eWaitEn e = false → eSigFence e = 0 →
        eNobj e = 0 →
        ∃ t y c, Runs (.doorbell who q v) s t ∧ queue? t q = some y ∧ y.adm = x.adm + 1 ∧ y.ri = x.ri ∧ y.cmds = [c] ∧
          c.seq = x.adm.toNat ∧ c.entry = e ∧ c.started = false ∧ c.st = none ∧ t.mem = s.mem)) ∧
    (x.slot = false → x.cmds.any Cmd.waiting = true → x.bell = none → (s.obj.queues.filter fun kv => kv.2.slot).length < 64 →
      mayTakeSlot s true q = true → ∃ t y, Runs (.slotTake true q) s t ∧ queue? t q = some y ∧ y.slot = true ∧ y.cmds = x.cmds ∧ t.mem = s.mem) ∧
    (∀ i k, ctx? s i = some k → k.slot = false → x.ctx = some i → x.cmds.any Cmd.waiting = true →
      (q, x) ∈ s.obj.queues → (s.obj.ctxs.filter fun kv => kv.2.slot).length < 48 → mayTakeSlot s false i = true →
      ∃ t y, Runs (.slotTake false i) s t ∧ ctx? t i = some y ∧ y.slot = true ∧ t.mem = s.mem) ∧
    (∀ queue, mayTakeSlot s queue q = false → Runs (.slotTake queue q) s s) ∧
    (slotContend s true = true → dutyMode s 0 = 0 → arbPick s (slotWaiters s true) ≠ some q →
      Runs (.slotTake true q) s s) ∧
    (slotNeeded s true = true → dutyMode s 4 = 0 → (oldest (evictable s true)).map Prod.fst = some q →
      ∃ t, Runs (.slotEvict true q) s t ∧ queue? t q = some { x with slot := false } ∧ t.mem = s.mem) ∧
    (slotNeeded s true = false → Runs (.slotEvict true q) s s) ∧
    ∀ kind idx e, (poolOf s.obj kind).quar.find? (fun y => y.1 == idx) = some e →
      (s.obj.quar.toNat ≤ subMod 64 (now s) e.2 → commandNames s kind idx = false →
        ∃ t, Runs (.quarantineEnd kind idx) s t ∧ (poolOf t.obj kind).free = (poolOf s.obj kind).free ++ [idx] ∧
          (∀ y ∈ (poolOf t.obj kind).quar, y.1 ≠ idx) ∧ (poolOf t.obj kind).gens = (poolOf s.obj kind).gens) ∧
      (subMod 64 (now s) e.2 < s.obj.quar.toNat ∨ commandNames s kind idx = true → Runs (.quarantineEnd kind idx) s s)

/-- R272, R327, R480, R481, R483, R484, R487, R492: the head command of a context queue starts when nothing contends with
it; a launch hands its blocks to its cores in turn, or is refused; a ladle command queues for the ladles; SIGNAL
retires at once; a command whose status is chosen and whose work has ended retires; and a launch whose blocks have
ended retires, or runs again where its saturation counts pass the limit. It concludes a next state of: commandStart,
commandRetire, launch, ladle, signal, launchBlocksEnd. -/
def Obligations.QueueCommands : Prop :=
  ∀ (s : State) (q : Nat) (x : Queue) (c : Cmd), Simple s q x c →
    (∀ i, x.ctx = some i → startable s x = some c →
      (rivals s q c).length ≤ 1 →
      ∃ t y d, Runs (.commandStart q) s t ∧ queue? t q = some y ∧ d ∈ y.cmds ∧ d.seq = c.seq ∧ d.started = true ∧
        y.started = x.started + 1 ∧ t.obj.lastQ = q ∧ t.mem = s.mem) ∧
    (∀ i, x.ctx = some i → startable s x = some c → 2 ≤ (rivals s q c).length → dutyMode s 0 = 0 →
      arbPick s (rivals s q c) ≠ some q → Runs (.commandStart q) s s) ∧
    Runs (.commandRetire q c.seq) s s ∧
    (∀ (s' : State) (st : Status) (n : Nat), s' = modCmd s q c.seq (fun d => { d with st := some st, result := n }) → c.started = false →
      ∃ t, Runs (.commandRetire q c.seq) s' t ∧ Finished t q x c st n) ∧
    (∀ i k, x.ctx = some i → ctx? s i = some k → c.started = true → c.ran = false →
      (eOpc c.entry = 1 → launchBad k c.entry = true → Refused (.launch q c.seq) s q x c .launchInvalid) ∧
      (eOpc c.entry = 1 → launchBad k c.entry = false →
        memCheck s (lParam c.entry) 64 = none → isBad s (lParam c.entry) 64 = false →
        ∃ t y d, Runs (.launch q c.seq) s t ∧ queue? t q = some y ∧ d ∈ y.cmds ∧ d.seq = c.seq ∧ d.ran = true ∧
          d.left = lBlocks c.entry ∧ t.mem = s.mem ∧
          ∀ j, j < lBlocks c.entry → ∀ core, (launchCores c.entry)[j % (launchCores c.entry).length]? = some core →
            { ctx := i, launch := (q, c.seq), bid := j, g := lG c.entry, n := lN c.entry, u := lU c.entry,
              entry := lEntry c.entry, param := rdBytes s (lParam c.entry) 64 } ∈ (coreOf t core).admQ) ∧
      (eOpc c.entry = 2 → bitOf (eBody c.entry 0) 13 = true → Refused (.ladle q c.seq) s q x c .descInvalid) ∧
      (eOpc c.entry = 2 → bitOf (eBody c.entry 0) 13 = false →
        ∃ t l, Runs (.ladle q c.seq) s t ∧ t.hubLadles = s.hubLadles ++ [l] ∧ l.cmd = some (q, c.seq) ∧ l.ctx = i ∧
          l.order = s.ladleOrder ∧ l.prev = ladlePrev s (1, q) ∧ (∀ w, w < 8 → l.words[w]? = some (BitVec.ofNat 64 (eBody c.entry (8 * w)))) ∧ t.mem = s.mem) ∧
      (eOpc c.entry = 3 → Refused (.signal q c.seq) s q x c .ok)) ∧
    (eOpc c.entry = 1 → c.ran = true → c.left = 0 → launchBusy s q c.seq = true → Runs (.launchBlocksEnd q c.seq) s s) ∧
    (eOpc c.entry = 1 → c.ran = true → c.left = 0 → launchBusy s q c.seq = false →
      (lQwV c.entry = false →
        ∃ t, Runs (.launchBlocksEnd q c.seq) s t ∧ Finished t q x c (c.fault.getD .ok) 0 ∧ t.cores = s.cores) ∧
      (lQwV c.entry = true → fld (rdNum s (qwRecord s c.entry) 8) 13 12 = 1 →
        c.rerun = true ∨ satAbove s (ranOn c.entry) (fld (rdNum s (qwRecord s c.entry + 0x28) 8) 31 0) = false →
        ∃ t, Runs (.launchBlocksEnd q c.seq) s t ∧ Finished t q x c (c.fault.getD .ok) 0 ∧
          ∀ core ∈ ranOn c.entry, (coreOf t core).press.sat = [] ∧ (coreOf t core).press.satOther = 0) ∧
      (lQwV c.entry = true → fld (rdNum s (qwRecord s c.entry) 8) 13 12 = 1 → c.rerun = false →
        satAbove s (ranOn c.entry) (fld (rdNum s (qwRecord s c.entry + 0x28) 8) 31 0) = true →
        ∃ t y d, Runs (.launchBlocksEnd q c.seq) s t ∧ queue? t q = some y ∧ d ∈ y.cmds ∧ d.seq = c.seq ∧ d.rerun = true ∧ d.fault = none ∧
          d.left = lBlocks c.entry ∧ t.mem = s.mem ∧
          (∀ core ∈ ranOn c.entry, (coreOf t core).press.sat = [] ∧ (coreOf t core).press.satOther = 0) ∧
          ∀ j, j < lBlocks c.entry → ∀ core, (launchCores c.entry)[j % (launchCores c.entry).length]? = some core →
            ∃ b ∈ (coreOf t core).admQ, b.bid = j ∧ b.launch = (q, c.seq) ∧ b.entry = lAlt c.entry)) ∧
    (c.left ≠ 0 → Runs (.launchBlocksEnd q c.seq) s s)

/-- R469 to R472, R476, R482, R497, R500, R501, R617: the admin commands on contexts and queues: what each makes or takes
away and what its record returns, and what it answers where a handle is not valid or another session's. It concludes a
next state of: ctxCreate, ctxDestroy, queueCreate, queueDestroy, query, abort. -/
def Obligations.AdminContexts : Prop :=
  ∀ (s : State) (q : Nat) (x : Queue) (c : Cmd) (opc : Nat), AdminNext s q x c opc →
    let h := fld (eBody c.entry 0) 31 0
    (∀ op ∈ onContexts, opc = op.1 →
      (resolve s .context h = none → Refused (op.2 q) s q x c .handleInvalid) ∧
      (∀ i k, resolve s .context h = some i → ctx? s i = some k → k.sess ≠ x.sess →
        Refused (op.2 q) s q x c .notPermitted)) ∧
    (opc = 0x20 → leVal (sliceB c.entry 0x48 32) = 0 →
      (nextIdx s .context = none → Refused (.ctxCreate q) s q x c .noResource) ∧
      (∀ i, nextIdx s .context = some i →
        ∃ t k, Runs (.ctxCreate q) s t ∧ Finished t q x c .ok (handleOf .context (nextGen s .context i) i) ∧
          ctx? t i = some k ∧ k.state = 1 ∧ k.gen = nextGen s .context i ∧ k.sess = x.sess ∧ k.cores = 0 ∧ k.mems = [] ∧
          k.tenant = tenantOf s x.sess ∧
          k.job = BitVec.ofNat 16 (eBody c.entry 0))) ∧
    (opc = 0x20 → leVal (sliceB c.entry 0x48 32) ≠ 0 → memHeld s x (fld (eBody c.entry 0x28) 31 0) = false →
      Refused (.ctxCreate q) s q x c .handleInvalid) ∧
    (∀ i k, opc = 0x21 → OwnCtx s x c i k → (∀ r y, (r, y) ∈ s.obj.queues → y.ctx ≠ some i) → k.mems = [] → k.fences = [] →
      ∃ t, Runs (.ctxDestroy q) s t ∧ Finished t q x c .ok 0 ∧ ctx? t i = none) ∧
    (∀ i k j, opc = 0x22 → OwnCtx s x c i k → nextIdx s .queue = some j → queue? s j = none →
      let ring := fld (eBody c.entry 8) 47 0
      let cpl := fld (eBody c.entry 0x10) 47 0
      let n := fld (eBody c.entry 0x18) 4 0
      let good := 4 ≤ n ∧ n ≤ 16 ∧ ring % 128 = 0 ∧ cpl % 16 = 0 ∧ ringOk s k ring (128 * 2 ^ n) = true ∧
        ringOk s k cpl (16 * 2 ^ n) = true
      (¬ good → Refused (.queueCreate q) s q x c .descInvalid) ∧
      (good → ∃ t y, Runs (.queueCreate q) s t ∧ Finished t q x c .ok (handleOf .queue (nextGen s .queue j) j) ∧
        queue? t j = some y ∧ y.state = 1 ∧ y.ctx = some i ∧ y.sess = x.sess ∧ y.ring = ring ∧ y.cpl = cpl ∧ y.k = n ∧
        y.gen = nextGen s .queue j ∧ y.ri = 0 ∧ y.adm = 0 ∧ y.cmds = [])) ∧
    (∀ j y, resolve s .queue h = some j → queue? s j = some y → y.sess = x.sess →
      (opc = 0x23 → y.ctx = none → Refused (.queueDestroy q) s q x c .notPermitted) ∧
      (opc = 0x23 → y.ctx.isSome = true → y.cmds = [] →
        ∃ t, Runs (.queueDestroy q) s t ∧ Finished t q x c .ok 0 ∧ queue? t j = none) ∧
      (opc = 0x2A → j ≠ q → y.state ≠ 3 →
        let seq := fld (eBody c.entry 8) 31 0
        (subMod 32 seq y.adm.toNat < 2 ^ 31 → Refused (.abort q) s q x c .notFound) ∧
        (2 ^ 31 ≤ subMod 32 seq y.adm.toNat → (∀ d ∈ y.cmds, d.seq ≠ seq) → Refused (.abort q) s q x c .alreadyDone) ∧
        (∀ d ∈ y.cmds, 2 ^ 31 ≤ subMod 32 seq y.adm.toNat → d.seq = seq → (y.cmds.map fun e => e.seq).Nodup →
          d.st = none → d.started = false → writeWaits s (cplAt y) 16 = false →
          ∃ t z, Runs (.abort q) s t ∧ Finished t q x c .ok 0 ∧ queue? t j = some z ∧ z.ri = y.ri + 1 ∧
            ∀ e ∈ z.cmds, e.seq ≠ seq))) ∧
    ∀ i k, opc = 0x29 → OwnCtx s x c i k →
      let w := eBody c.entry 8
      (memHeld s x (fld w 63 32) = false → Refused (.query q) s q x c .handleInvalid) ∧
      (∀ o, memHeld s x (fld w 63 32) = true → mem? s (handleIdx .memory (fld w 63 32)) = some o →
        (o.len * 65536 < fld w 31 0 + 80 → Refused (.query q) s q x c .descInvalid) ∧
        (fld w 31 0 + 80 ≤ o.len * 65536 → regionOf (o.base + fld w 31 0) = .hbm →
          writeWaits s (o.base + fld w 31 0) 80 = false →
          (o.base + fld w 31 0 + 80 ≤ cplAt x ∨ cplAt x + 16 ≤ o.base + fld w 31 0) →
          ∃ t, Runs (.query q) s t ∧ Finished t q x c .ok 0 ∧ rdBytes t (o.base + fld w 31 0) 80 = queryB s k) ∧
        (fld w 31 0 + 80 ≤ o.len * 65536 → writeWaits s (o.base + fld w 31 0) 80 = true →
          ∃ t, Runs (.query q) s t ∧ queue? t q = some x ∧ t.mem = s.mem))

/-- R482, R494, R496, R561: the admin commands on memory objects and fences. It concludes a next state of: memAlloc,
memFree, share, fenceCreate, fenceDestroy. -/
def Obligations.AdminMemory : Prop :=
  ∀ (s : State) (q : Nat) (x : Queue) (c : Cmd) (opc i : Nat) (k : Context), AdminNext s q x c opc → OwnCtx s x c i k →
    keysRise s.obj.ctxs = true →
    let len := eBody c.entry 8
    let place := fld (eBody c.entry 0x10) 3 0
    (opc = 0x24 → len = 0 ∨ 3 < place → ∀ base, Refused (.memAlloc q base) s q x c .descInvalid) ∧
    (opc = 0x24 → len ≠ 0 → place ≤ 3 → Refused (.memAlloc q none) s q x c .noResource) ∧
    (∀ a j, opc = 0x24 → len ≠ 0 → place ≤ 3 → placeOk s place (fld (eBody c.entry 0x10) 5 4) a (65536 * ceilDiv len 65536) = true →
      nextIdx s .memory = some j →
      ∃ t m y, Runs (.memAlloc q (some a)) s t ∧
        Finished t q x c .ok (putFld (handleOf .memory (nextGen s .memory j) j) 32 32 + a / 65536) ∧ mem? t j = some m ∧
        m.state = 1 ∧ m.base = a ∧ m.len = ceilDiv len 65536 ∧ m.owner = i ∧ m.place = place ∧ m.refs = 0 ∧
        m.tenant = k.tenant ∧ ctx? t i = some y ∧ j ∈ y.mems) ∧
    (∀ a, opc = 0x24 → len ≠ 0 → place ≤ 3 → placeOk s place (fld (eBody c.entry 0x10) 5 4) a (65536 * ceilDiv len 65536) = false →
      Runs (.memAlloc q (some a)) s s) ∧
    (∀ m o, resolve s .memory (fld (eBody c.entry 8) 31 0) = some m → mem? s m = some o →
      (opc = 0x25 → m ∉ k.mems → Refused (.memFree q) s q x c .handleInvalid) ∧
      (opc = 0x25 → m ∈ k.mems → bitOf (eBody c.entry 0x10) 0 = false →
        ∃ t y, Runs (.memFree q) s t ∧ Finished t q x c .ok 0 ∧ ctx? t i = some y ∧ m ∉ y.mems ∧
          (memHolders s m = [i] → o.refs = 0 → mem? t m = none) ∧
          (memHolders s m = [i] → o.refs ≠ 0 → mem? t m = some { o with state := 2 })) ∧
      (opc = 0x25 → m ∈ k.mems → bitOf (eBody c.entry 0x10) 0 = true → o.owner ≠ i →
        Refused (.memFree q) s q x c .notPermitted)) ∧
    (∀ j y m, opc = 0x26 → resolve s .context (fld (eBody c.entry 8) 31 0) = some j → ctx? s j = some y →
      resolve s .memory (fld (eBody c.entry 0x10) 31 0) = some m →
      (m ∈ k.mems → ∃ t z, Runs (.share q) s t ∧ Finished t q x c .ok 0 ∧ ctx? t j = some z ∧ m ∈ z.mems ∧
        ∀ n ∈ y.mems, n ∈ z.mems) ∧
      (m ∉ k.mems → Refused (.share q) s q x c .handleInvalid)) ∧
    (∀ j, opc = 0x27 → nextIdx s .fence = some j →
      ∃ t f y, Runs (.fenceCreate q) s t ∧ Finished t q x c .ok (handleOf .fence (nextGen s .fence j) j) ∧
        fence? t j = some f ∧ f.value = BitVec.ofNat 64 (eBody c.entry 8) ∧ f.status = .ok ∧ f.firstErr = .ok ∧ f.owner = i ∧
        f.waiters = 0 ∧ f.refs = 0 ∧ ctx? t i = some y ∧ j ∈ y.fences) ∧
    (opc = 0x27 → nextIdx s .fence = none → Refused (.fenceCreate q) s q x c .noResource) ∧
    ∀ f o, opc = 0x28 → resolve s .fence (fld (eBody c.entry 8) 31 0) = some f → fence? s f = some o →
      (f ∉ k.fences → Refused (.fenceDestroy q) s q x c .handleInvalid) ∧
      (f ∈ k.fences → fenceHolders s f = [i] → o.waiters = 0 → o.refs = 0 →
        ∃ t y, Runs (.fenceDestroy q) s t ∧ Finished t q x c .ok 0 ∧ fence? t f = none ∧ ctx? t i = some y ∧ f ∉ y.fences)

/-! ## The job, the cores' residents, and register writes -/

namespace Sys2Proof.Says

/-- A JOB_CONFIG command of a KIND from the controlling session comes next, and the state in which it runs (R485). -/
structure JobNext (s : State) (q : Nat) (x : Queue) (c : Cmd) (kind : Nat) : Prop where
  rind : RindRuns s
  next : AdminNext s q x c 0x2C
  control : controls s x.sess = true
  kind : fld (eBody c.entry 0) 7 0 = kind

/-- The commands of JOB_CONFIG by KIND (R485). -/
def jobKinds : List (Nat × (Nat → Instr)) :=
  [(1, .setReg), (2, .bucketOpen), (3, .bucketClose), (4, .turnRegions), (5, .decisionPost)]

/-- A register write by the rind does what is given, and nothing else. -/
def RindWrites (s : State) (a width : Nat) (v : Dword) (t : State) : Prop := Runs (.registerWrite .rind a width v) s t

end Sys2Proof.Says

/-- R37, R38, R382, R385, R426, R485, R486, R526: JOB_JOIN and JOB_CONFIG by kind: registers set, bucket slots opened and
closed, turning regions named and decisions posted; what each answers otherwise; the close of a slot; and the decision
that the rind takes at a deadline. It concludes a next state of: jobJoin, setReg, bucketOpen, bucketClose,
bucketCloseEffect, turnRegions, decisionPost, decisionDeadlineExpiry. -/
def Obligations.JobCommands : Prop :=
  ∀ (s : State) (q : Nat) (x : Queue) (c : Cmd),
    (∀ op ∈ jobKinds, RindRuns s → AdminNext s q x c 0x2C → controls s x.sess = false → fld (eBody c.entry 0) 7 0 = op.1 →
      Refused (op.2 q) s q x c .notPermitted) ∧
    (JobNext s q x c 0 → Refused (.setReg q) s q x c .descInvalid) ∧
    (JobNext s q x c 1 →
      let a := eBody c.entry 8
      let v := eBody c.entry 0x10
      (a = 0x0F2800000030 → ∃ t, Runs (.setReg q) s t ∧ Finished t q x c .ok 0 ∧
        t.turn.phaseRing = BitVec.ofNat 64 (fld v 47 19 * 2 ^ 19)) ∧
      (a = 0x0F0000000200 → ∃ t, Runs (.setReg q) s t ∧ Finished t q x c .ok 0 ∧ t.qw.ctl = qwCtlStore (v % 2 ^ 32)) ∧
      (a < 0x0F0000000000 → Refused (.setReg q) s q x c .notPermitted)) ∧
    (JobNext s q x c 2 → ∀ b at_, eBody c.entry 8 = b → b < 65536 →
      recordAt s x (eBody c.entry 0x10) 64 = (at_, none) →
      let bs := rdBytes s at_ 64
      (imageOk s bs = false → Refused (.bucketOpen q) s q x c .descInvalid) ∧
      (imageOk s bs = true → slotOpen s b (bucketOf s b).gen = true → Refused (.bucketOpen q) s q x c .busy) ∧
      (imageOk s bs = true → slotOpen s b (bucketOf s b).gen = false → inHorizon s b = false →
        Open s (bktAt s b) 64 → Open s (recAt s b) 64 → (openSlot (markStarted s q c.seq) b bs).1.turn.tblCnt.toNat ≤ 256 →
        ∃ t, Runs (.bucketOpen q) s t ∧ Finished t q x c .ok (((bucketOf s b).gen + 1) % 256) ∧
          b < t.hoop.bktCnt.toNat ∧ b ∉ t.hoop.closing ∧ b ∉ t.hoop.loaded)) ∧
    (JobNext s q x c 3 → ∀ b, eBody c.entry 8 = b →
      (65536 ≤ b ∨ slotOpen s b (bucketOf s b).gen = false → Refused (.bucketClose q) s q x c .notFound) ∧
      (b < 65536 → slotOpen s b (bucketOf s b).gen = true →
        ∃ t, Runs (.bucketClose q) s t ∧ Finished t q x c .ok 0 ∧ b ∈ t.hoop.closing ∧
          { t.hoop with closing := s.hoop.closing } = s.hoop)) ∧
    (JobNext s q x c 4 →
      let n := eBody c.entry 0x10
      (256 < n → Refused (.turnRegions q) s q x c .descInvalid) ∧
      (∀ at_, n ≤ 256 → recordAt s x (eBody c.entry 8) (16 * n) = (at_, none) →
        let rs := (List.range n).map fun i => (fld (rdNum s (at_ + 16 * i) 8) 47 0, fld (rdNum s (at_ + 16 * i + 8) 8) 47 0)
        (regionsOk rs = false ∨ 256 < (wholeTable (markStarted s q c.seq) rs).length → Refused (.turnRegions q) s q x c .descInvalid) ∧
        (regionsOk rs = true → (wholeTable (markStarted s q c.seq) rs).length ≤ 256 →
          ∃ t, Runs (.turnRegions q) s t ∧ Finished t q x c .ok 0 ∧ t.turn.client = rs ∧ t.turn.full0 = true ∧
            t.turn.full1 = true ∧
            t.turn.tblCnt = BitVec.ofNat 32 (wholeTable (markStarted s q c.seq) rs).length))) ∧
    (JobNext s q x c 5 →
      let fn := eBody c.entry 8
      let w := eBody c.entry 0x10
      (fn ∉ [0, 3, 4, 6] ∨ dutyMode s fn ≠ 2 → Refused (.decisionPost q) s q x c .descInvalid) ∧
      (∀ at_, fn ∈ [0, 3, 4, 6] → dutyMode s fn = 2 → recordAt s x w 4 = (at_, none) →
        (resolve s .fence (fld (eBody c.entry 0x18) 31 0)).bind (fence? s) = none →
        Refused (.decisionPost q) s q x c .handleInvalid) ∧
      (∀ at_ f, fn ∈ [0, 3, 4, 6] → dutyMode s fn = 2 → recordAt s x w 4 = (at_, none) →
        (resolve s .fence (fld (eBody c.entry 0x18) 31 0)).bind (fence? s) = some f →
        ∃ t p, Runs (.decisionPost q) s t ∧ Finished t q x c .ok 0 ∧ t.obj.posts.find? (fun y => y.fn == fn) = some p ∧
          p.obj = handleIdx .memory (fld w 63 32) ∧ p.off = fld w 31 0 ∧
          p.fence = BitVec.ofNat 32 (fld (eBody c.entry 0x18) 31 0) ∧ p.base = f.value ∧
          ∀ y ∈ t.obj.posts, y.fn = fn → y = p)) ∧
    (RindRuns s → AdminNext s q x c 0x2B →
      (mayJoin s x.sess = false → Refused (.jobJoin q) s q x c .notPermitted) ∧
      (mayJoin s x.sess = true → s.triage.unfit = false → s.obj.job.isSome = true → s.turn.coordStat.getLsbD 29 = false →
        Refused (.jobJoin q) s q x c .busy) ∧
      (∀ at_, mayJoin s x.sess = true → s.triage.unfit = false → s.obj.job = none →
        recordAt s x (eBody c.entry 0) 64 = (at_, none) →
        let head := rdNum s (at_ + 8) 8
        recordAt s x (eBody c.entry 0) (64 + 8 * fld head 63 48 + 8 * fld head 47 32) = (at_, none) →
        let r := joinRec s at_
        (gridOk r = true → (∃ m ∈ r.members, m.1 = ownNode s) → sharedDuty r.duty = sharedDuty (dutyWord s) →
          fenceHeld s x (fld (eBody c.entry 8) 31 0) = true →
          ∃ t e, Runs (.jobJoin q) s t ∧ Finished t q x c .ok r.job ∧
            t.obj.job = some (r.job, x.sess, BitVec.ofNat 32 (fld (eBody c.entry 8) 31 0)) ∧ t.obj.members = r.members ∧
            t.fab.change = some e ∧ e.epoch = BitVec.ofNat 32 r.epoch ∧ e.fmap = [] ∧ e.aliases = [] ∧
            (s.turn.left ≠ some r.job → ownNode s = r.coord.headD 0 → fld t.turn.coordStat.toNat 31 30 = 2) ∧
            (s.turn.left = some r.job → fld t.turn.coordStat.toNat 31 30 = 3 ∧ ownNode s ∈ t.turn.spares)) ∧
        (gridOk r = false → Refused (.jobJoin q) s q x c .descInvalid) ∧
        (gridOk r = true → (∃ m ∈ r.members, m.1 = ownNode s) → sharedDuty r.duty ≠ sharedDuty (dutyWord s) →
          Refused (.jobJoin q) s q x c .modeMismatch))) ∧
    (∀ b, HubRuns s → b ∈ s.hoop.closing → bstep? s b = none → s.turn.run = none → Open s (bktAt s b) 64 → Open s (recAt s b) 64 →
      Apart (bktAt s b) (recAt s b) 64 →
      ∃ t, Runs (.bucketCloseEffect b) s t ∧ (bucketOf t b).isOpen = false ∧ b ∈ t.hoop.closed ∧ b ∉ t.hoop.closing ∧
        b ∉ t.hoop.loaded ∧ (∀ m ∈ t.hoop.matchB, rBkt m.2 ≠ b) ∧ recNum t b 0x18 6 = curStep s b) ∧
    (∀ b, b ∉ s.hoop.closing ∨ (bstep? s b).isSome = true → Runs (.bucketCloseEffect b) s s) ∧
    (∀ fn, mget? s.obj.contend fn = none → Runs (.decisionDeadlineExpiry fn) s s) ∧
    ∀ fn t0, RindRuns s → mget? s.obj.contend fn = some t0 → dutyMode s fn = 2 → decided s fn = false →
      dutyDeadline s fn ≤ subMod 64 (now s) t0 ∨ controllerGone s = true → fn < 8 →
      ∃ t, Runs (.decisionDeadlineExpiry fn) s t ∧ t.dutyFb.getLsbD fn = true ∧ mget? t.obj.contend fn = none ∧
        (fn ≠ 3 → fn ∈ t.obj.rindTurn ∧ t.fab = s.fab) ∧ (fn = 3 → t.fab.rcache = routeCache s ∧ t.fab.cacheWait = false) ∧
        t.mem = s.mem

/-- R101, R138, R145 to R153, R179, R182, R184, R235, R491, R497: the head block of a core's admission queue enters the
lowest free block slot, scratchpad run and group slots, with register units that no other group has, or waits with
ADMIT_WAIT; groups and blocks that have ended give their slots back; a preempted core stops and, once it is quiet,
saves its context; a free core takes a context; and the counts of the running contexts are charged. It concludes a
next state of: preempt, contextSwitch, ctxCounterUpdate, blockAdmit, groupResourceFree, blockResourceFree. -/
def Obligations.CoreResidents : Prop :=
  ∀ (s : State) (c : Nat), HubRuns s → c < 256 →
    (∀ b slot run, (coreOf s c).admQ.head? = some b → (coreOf s c).stopped = false → (coreOf s c).ctx = some b.ctx →
      (∀ i, i < slot → (mget? (coreOf s c).blocks i).isSome = true) → mget? (coreOf s c).blocks slot = none → slot < 16 →
      freeRun (coreOf s c) b.u = some run → (freeSlots (coreOf s c).groups 48 b.g).length = b.g →
      unitsUsed (coreOf s c) + b.g * unitsOf b.n ≤ 512 →
      ∃ t blk, Runs (.blockAdmit c) s t ∧ (coreOf t c).admQ = (coreOf s c).admQ.drop 1 ∧
        mget? (coreOf t c).blocks slot = some blk ∧ blk.ctx = b.ctx ∧ blk.launch = b.launch ∧ blk.bid = b.bid ∧ blk.g = b.g ∧
        blk.n = b.n ∧ blk.u = b.u ∧ blk.base = run ∧ blk.slots = freeSlots (coreOf s c).groups 48 b.g ∧
        (∀ j h, (freeSlots (coreOf s c).groups 48 b.g)[j]? = some h →
          ∃ us, mget? (coreOf t c).groups h = some (newGroup slot j b.entry us) ∧ us.length = unitsOf b.n ∧
            ∀ u ∈ us, u < 512 ∧ ∀ kv ∈ (coreOf s c).groups, u ∉ kv.2.units) ∧
        (∀ h, h ∉ freeSlots (coreOf s c).groups 48 b.g → mget? (coreOf t c).groups h = mget? (coreOf s c).groups h) ∧
        (∀ w, w < 8 → mget (coreOf t c).param 0 (8 * slot + w) = BitVec.ofNat 64 (wordAt b.param (8 * w))) ∧ t.mem = s.mem) ∧
    (∀ b, (coreOf s c).admQ.head? = some b → (coreOf s c).stopped = false → (coreOf s c).ctx = some b.ctx →
      (freeSlots (coreOf s c).blocks 16 1) ≠ [] → freeRun (coreOf s c) b.u = none →
      ∃ t, Runs (.blockAdmit c) s t ∧ coreOf t c = { coreOf s c with stat := (coreOf t c).stat } ∧
        (coreOf t c).stat.getLsbD 1 = true ∧ t.mem = s.mem) ∧
    ((coreOf s c).admQ = [] → ∃ t, Runs (.blockAdmit c) s t ∧ coreOf t c = coreOf s c) ∧
    (∀ g, g < 48 → groupDone (coreOf s c) g = true →
      Runs (.groupResourceFree c g) s (modCore s c fun k => { k with groups := mdel k.groups g })) ∧
    (∀ g, g < 48 → groupDone (coreOf s c) g = false → Runs (.groupResourceFree c g) s s) ∧
    (∀ b, b < 16 → blockDone (coreOf s c) b = true →
      Runs (.blockResourceFree c b) s
        (modCore s c fun k => { k with blocks := mdel k.blocks b, groups := k.groups.filter fun kv => kv.2.blk ≠ b })) ∧
    (∀ b, b < 16 → blockDone (coreOf s c) b = false → Runs (.blockResourceFree c b) s s) ∧
    (preemptDue s c = true → quiet (coreOf s c) = false →
      Runs (.preempt c) s (modCore s c fun k => { k with stopped := true })) ∧
    (preemptDue s c = false → (coreOf s c).stopped = false ∨ (coreOf s c).phase.held.isSome = true → Runs (.preempt c) s s) ∧
    (∀ i k, preemptDue s c = true → quiet (coreOf s c) = true → (coreOf s c).ctx = some i → ctx? s i = some k →
      saveWaits s (saveRange s c i) none = false →
      ∃ t y o, Runs (.preempt c) s t ∧ (coreOf t c).ctx = none ∧ (coreOf t c).groups = [] ∧ (coreOf t c).blocks = [] ∧
        (coreOf t c).stopped = false ∧ (coreOf t c).oc = [] ∧ ctx? t i = some y ∧ mget? y.saved c = some o ∧ o.groups = (coreOf s c).groups ∧
        o.blocks = (coreOf s c).blocks ∧ y.issued = k.issued + ((coreOf s c).issueCnt - mget k.base 0 (2 * c)) ∧
        (k.saveObj = none → t.mem = s.mem) ∧ ∀ d, d ≠ c → coreOf t d = coreOf s d) ∧
    (∀ i k, ctx? s i = some k → (coreOf s c).ctx = none → (coreOf s c).stopped = false → (coreOf s c).blocks = [] →
      quiet (coreOf s c) = true → k.slot = true → k.state = 1 → k.cores.getLsbD c = true →
      saveWaits s none (saveRange s c i) = false →
      ∃ t y, Runs (.contextSwitch c i) s t ∧ (coreOf t c).ctx = some i ∧ ctx? t i = some y ∧ mget? y.saved c = none ∧
        (∀ o, mget? k.saved c = some o → (coreOf t c).blocks = o.blocks ∧
          (k.saveObj = none → (coreOf t c).groups = o.groups) ∧
          (k.saveObj.isSome = true → Apart (saveAt k c) (spadBase c) saveSlot → ∀ g x, mget? o.groups g = some x →
            ∃ z, mget? (coreOf t c).groups g = some z ∧ { z with regs := x.regs, bad := x.bad } = x ∧
              (x.units.length ≤ 32 → ∀ l r, l < 32 → r < 8 * x.units.length →
                (mget z.regs 0 (256 * l + r)).toNat = rdNum s (regPlace (saveAt k c) x l r) 4))) ∧
        (mget? k.saved c = none → (coreOf t c).oc = [] ∧ (coreOf t c).whey.ocLive = 0) ∧
        ∀ d, d ≠ c → coreOf t d = coreOf s d) ∧
    ((coreOf s c).blocks ≠ [] → ∀ i, Runs (.contextSwitch c i) s s) ∧
    ∀ i k, (coreOf s c).ctx = some i → ctx? s i = some k → (∀ d, d < 256 → d ≠ c → (coreOf s d).ctx ≠ some i) →
      ∃ t y, Runs .ctxCounterUpdate s t ∧ ctx? t i = some y ∧
        y.issued = k.issued + ((coreOf s c).issueCnt - mget k.base 0 (2 * c)) ∧
        y.resident = k.resident + ((coreOf s c).resCnt - mget k.base 0 (2 * c + 1)) ∧
        y.base = mput (mput k.base (2 * c) (coreOf s c).issueCnt) (2 * c + 1) (coreOf s c).resCnt ∧
        { t with obj := s.obj, freeIx := s.freeIx } = s

/-- R13, R30, R33, R136, R467, R614: a register write by the rind stores what the register's access code and its rules let
it store; PRESS_CO_CTL waits for the next batch head and reads as before until then, and waits for the press clock,
which it wakes, where that has stopped; any write to the doorbell page of a queue renews its lease; a write to a
read-only register or a reserved place changes nothing; and an agent that the address is not open to is refused. It
concludes a next state of: registerWrite. -/
def Obligations.RegisterWrites : Prop :=
  ∀ (s : State) (v : Dword),
    RindWrites s 0x0F0000000408 4 v { s with fab := { s.fab with tmo := BitVec.ofNat 32 (max (fld v.toNat 31 0) 0x1000) } } ∧
    RindWrites s 0x0F0000000504 4 v
      { s with obj := { s.obj with quar := BitVec.ofNat 32 (max (fld v.toNat 31 0) 0x0BEBC200) } } ∧
    RindWrites s 0x0F2000000034 4 v
      { s with hoop := { s.hoop with stall := BitVec.ofNat 32 (max (fld v.toNat 31 0) 0x00030D40) } } ∧
    RindWrites s 0x0F2800000040 8 v { s with turn := { s.turn with coordTime := v } } ∧
    RindWrites s 0x0F0000000810 4 v
      { s with
        triage :=
          { s.triage with
            replayReq := s.triage.replayReq && !v.getLsbD 1
            degraded := s.triage.degraded && !v.getLsbD 0 } } ∧
    (∃ t, RindWrites s 0x0F2000000038 4 v t ∧
      { t with hoop := { t.hoop with stat := s.hoop.stat } } = s ∧
      ∀ n, n < 9 → t.hoop.stat.getLsbD n = (s.hoop.stat.getLsbD n && !(decide (n < 8) && v.getLsbD n))) ∧
    (∀ c, c < 256 →
      RindWrites s (0x0F0100000000 + c / 64 * 0x100000000 + c % 64 * 0x1000000 + 0x43028) 8 v
        (modWhey s c fun w => { w with ocLive := v }) ∧
      (let a := 0x0F0100000000 + c / 64 * 0x100000000 + c % 64 * 0x1000000 + 0x41008
        let p := (coreOf s c).press
        ∃ t, RindWrites s a 4 v t ∧ (csrRead t a).1 = (csrRead s a).1 ∧ (∀ d, d ≠ c → coreOf t d = coreOf s d) ∧
          { t with cores := s.cores, clk := s.clk } = s ∧
          (pressRuns s c = true → p.wake = false →
            coreOf t c = { coreOf s c with press := { p with coNext := some (coCtlStore (v.setWidth 32)) } } ∧ t.clk = s.clk) ∧
          (pressRuns s c = false → (coreOf t c).press.writes = p.writes ++ [(none, v.setWidth 32)] ∧
            (p.stopped = true → (coreOf t c).press.wake = true))) ∧
      ∃ t, RindWrites s (0x0F0100000000 + c / 64 * 0x100000000 + c % 64 * 0x1000000 + 0x42008) 4 v t ∧
        coreOf t c = { coreOf s c with stat := (coreOf t c).stat } ∧
        ∀ n, n < 3 → (coreOf t c).stat.getLsbD n = ((coreOf s c).stat.getLsbD n && !v.getLsbD n)) ∧
    (∀ q off, q < 16384 → off ∈ [0x008, 0x010, 0x018, 0xFF8] → RindWrites s (0x0F0800000000 + q * 0x1000 + off) 8 v (renewLease s q)) ∧
    (∀ a ∈ [0x0F0000000600, 0x0F0000000700, 0x0F0000000718, 0x0F0000000510, 0x0F0000000900], RindWrites s a 8 v s) ∧
    (∀ a ∈ [0x0F0000000300, 0x0F0000000418, 0x0F0000000FF0], RindWrites s a 4 v s) ∧
    (∀ a width, Runs (.registerWrite .rind a width v) s s ∨ csrOk s .rind a width true = true) ∧
    (∀ n a width, csrOpen s (.client n) a true = false → (mget s.eths {} (n / 4096)).pause = none → Refuses (.registerWrite (.client n) a width v) s n .access) ∧
    ∀ c i k, (coreOf s c).ctx = some i → ctx? s i = some k → k.state = 1 → k.dying = false →
      ∀ a ∈ [0x0F0000000600, 0x0F0000000408, 0x0F2000000034, 0x0F3100000000],
        ∃ t, Runs (.registerWrite (.program c) a 4 v) s t ∧ LostWith t i .addressFault c

/-! ## The whole machine -/

namespace Sys2Proof.Says

/-- Registers outside the cores and ports, each with the value that its Reset column gives: QW_CTL, QW_TBL_BASE,
QW_TBL_CNT, QW_STAT (R276), RUONG_TMO, RUONG_ARB, RUONG_DROP (R373, R374), OBJ_STAT, OBJ_QUAR, OBJ_DROP (R504), START_STAT
but for FW_VER (R528), CLK_STAT, CLK_LOST, CLK_OVR (R546), INTEG_CORR, INTEG_UNCORR, TRIAGE_STAT (R559), PWR_STAT, PWR_GATE
(R611, R612), CAVE_CTL (R285), HOOP_CTL, HOOP_STALL, HOOP_STAT, HOOP_LATE, HOOP_DROP, HOOP_CHK, HOOP_RSCL (R417 to R419),
TURN_CTL, TURN_TBL_CNT, TURN_TBL_BASE, TURN_SLOT0, TURN_SLOT1, TURN_STAT, RLOG_BASE, PHASE_RING, COORD_CTL, COORD_TIME,
COORD_STAT (R462, R463), ETH_PSTAT, ETH_CNT, PCIE_LSTAT, PCIE_LERR (R594). -/
def resetValues : List (Nat × Nat) :=
  [(0x0F0000000200, 0x64), (0x0F0000000208, 0), (0x0F0000000210, 0), (0x0F0000000218, 0), (0x0F0000000408, 0x000F4240),
   (0x0F0000000410, 0x00080404), (0x0F0000000420, 0), (0x0F0000000500, 0), (0x0F0000000504, 0x17D78400),
   (0x0F0000000508, 0), (0x0F0000000600, 0), (0x0F0000000700, 0), (0x0F0000000708, 0), (0x0F0000000710, 0),
   (0x0F0000000800, 0), (0x0F0000000808, 0), (0x0F0000000810, 0), (0x0F0000000A00, 0x0E10000000000000),
   (0x0F0000000A08, 0), (0x0F2200000000, 0xC1180000), (0x0F2000000030, 0x00400000), (0x0F2000000034, 0x01312D00),
   (0x0F2000000038, 0), (0x0F2000000040, 0), (0x0F2000000048, 0), (0x0F2000000050, 0), (0x0F2000000058, 0)] ++
  [(0x0F2800000000, 0x00070000), (0x0F2800000004, 0), (0x0F2800000008, 0), (0x0F2800000010, 0), (0x0F2800000018, 0),
   (0x0F2800000020, 0), (0x0F2800000028, 0), (0x0F2800000030, 0), (0x0F2800000038, 0), (0x0F2800000040, 0x004C4B40000F4240),
   (0x0F2800000048, 0), (0x0F2300000000, 0), (0x0F2300000008, 0), (0x0F2300001000, 0), (0x0F2300001008, 0),
   (0x0F2400000000, 0), (0x0F2400000008, 0), (0x0F2400003000, 0), (0x0F2400003008, 0)]

/-- Registers of a core by their offset in its 16 MiB window: PRESS_STAT, PRESS_SR_LOG, PRESS_FLT_LOG, PRESS_FLT_CNT (R97 to
R100), PRESS_QSTAT, PRESS_ISSUE_SEQ, PRESS_CO_CTL, PRESS_CC0 (R134 to R137), CORE_OCC, CORE_STAT (R181, R182), WHEY_STAT,
WHEY_ISSUE_SEQ, WHEY_QSTAT, WHEY_NAN_LOG0, WHEY_NAN_LOG1, WHEY_NAN_CNT, WHEY_OC_LIVE, WHEY_CULT_SEED, WHEY_CC0,
WHEY_CULT_CTR0 (R248 to R252), PRESS_SAT_CTL, PRESS_SAT_OTHER, PRESS_SAT0 (R275), LCH_PARAM0 (R506). -/
def coreResets : List (Nat × Nat) :=
  [(0x40000, 0), (0x40008, 0), (0x40010, 0), (0x40018, 0), (0x41000, 0), (0x41004, 0), (0x41008, 0x80800258), (0x41100, 0),
   (0x42000, 0x180 * 2 ^ 41 + 0x180 * 2 ^ 32 + 0x200 * 2 ^ 22 + 0x30 * 2 ^ 16 + 0x10 * 2 ^ 11), (0x42008, 0), (0x43000, 0),
   (0x43004, 0), (0x43008, 0), (0x43010, 0), (0x43018, 0), (0x43020, 0), (0x43028, 0), (0x43030, 0), (0x43100, 0), (0x43200, 0),
   (0x44000, 0), (0x44004, 0), (0x44100, 0), (0x45000, 0)]

/-- The worked example of the chapter on the instruction word: MXISSUE t12, t4, p3; @!p2 LD.GLB.32 t7, [t10 + 0x40],
acquire, module; @p1 BRA −5. -/
def exampleWords : List (Dword × (Nat → Nat → Instr)) :=
  [(0x70000C0400000003, fun c g => .mxissue c g { dst := 0x0C, a := 0x04, tail := 0x00000003 }),
   (0x429A070A00A80040, fun c g => .load c g 0x0A { pe := true, pn := true, pi := 2, dst := 0x07, a := 0x0A, tail := 0x00A80040 }),
   (0x00710000FFFFFFFB, fun c g => .bra c g { fmt := true, pe := true, pi := 1, tail := 0xFFFFFFFB })]

end Sys2Proof.Says

/-- The step of the model: the command at the front of the queue runs on the state with the rest of the queue. On an empty
queue one tick of the reference passes, which R531 counts in REF_CNT; that the tick stands in place of idling is the model's
choice (log entry 4). Without input power or without the reference only the rails go on (R543, R603). -/
def Obligations.StepRunsTheFrontCommand : Prop :=
  (∀ (i : Instr) (rest : List Instr) (s : State), s.pending = i :: rest → step s = exec i { s with pending := rest }) ∧
  (∀ s : State, s.pending = [] → s.pow.vin = true → s.pow.refGone = false → s.start.flashWrite = none →
    ∃ t, step s = .next t ∧ t.refCnt = s.refCnt + 1 ∧ t.pending = [] ∧
      ((∀ kv ∈ s.obj.qps, kv.2.reqs = []) → (∀ kv ∈ s.cores, kv.2.phase.segLeft = none) →
        (∀ p, p < 2 → (mget s.eths {} p).pause = none) → (s.start.warm = false ∨ s.start.up = true) →
        (s.pow.rise = false ∨ s.pow.rails < 6 ∨ s.pow.pgood = true) → t.out = s.out)) ∧
  ∀ s : State, s.pending = [] → (s.pow.vin = false ∨ s.pow.refGone = true) →
    ∃ t, step s = .next t ∧ { t with pow := s.pow, out := s.out } = s

/-- The state after reset: stage 0, no command waits, and every register named here reads the value of its Reset column;
logical core c of a vat is bound to physical core c (R465), and every port is DOWN with EN and HALF_OK set (R377, R378). The
memory has its canonical form. -/
def Obligations.ResetState : Prop :=
  State.reset.pending = [] ∧ State.reset.start.stage = 0 ∧ State.reset.memOk ∧
  (∀ x ∈ resetValues, (csrRead State.reset x.1).1 = x.2) ∧
  (∀ c, c < 256 → physOf State.reset c = 66 * (c / 64) + c % 64) ∧
  (∀ p, p < 12 → (csrRead State.reset (0x0F1000000000 + p * 0x100000000)).1 = 0 ∧
    (csrRead State.reset (0x0F1000000008 + p * 0x100000000)).1 = 0xA0000000) ∧
  ∀ c, c < 256 → ∀ x ∈ coreResets,
    (csrRead State.reset (0x0F0100000000 + c / 64 * 0x100000000 + c % 64 * 0x1000000 + x.1)).1 = x.2

/-- R185 to R188, R194, R200, R205: the three words of the worked example decode to the instructions that they stand for, in
every slot of every core, and encode back to those words. -/
def Obligations.WorkedExampleWords : Prop :=
  ∀ x ∈ exampleWords, ∀ c g, decodeThread c g x.1 = some (x.2 c g) ∧ encodeThread (x.2 c g) = some x.1

/-- R186: every thread instruction, with every operand at every value, decodes from its own word to itself; and every word
that decodes is the word of the instruction that it decodes to, with CLASS, OP, FMT, PE, PN, PI, DST, SRC_A and the tail at
the places that the rule gives them: no bit of an encoding is dropped, and no two words mean the same. -/
def Obligations.ThreadWordsRoundTrip : Prop :=
  (∀ (i : Instr) (t : ThreadWord), threadWord i = some t → decodeThread t.core t.slot (wordOfInsn t.cls t.op t.insn) = some i) ∧
  ∀ (c g : Nat) (w : Dword) (i : Instr), decodeThread c g w = some i → encodeThread i = some w ∧
    ∃ t, threadWord i = some t ∧ t.core = c ∧ t.slot = g ∧ t.cls = fld w.toNat 63 60 ∧ t.op = fld w.toNat 59 54 ∧
      t.insn.fmt = w.getLsbD 53 ∧ t.insn.pe = w.getLsbD 52 ∧ t.insn.pn = w.getLsbD 51 ∧ t.insn.pi.toNat = fld w.toNat 50 48 ∧
      t.insn.dst.toNat = fld w.toNat 47 40 ∧ t.insn.a.toNat = fld w.toNat 39 32 ∧ t.insn.tail.toNat = fld w.toNat 31 0

/-- R192, R193: the words that decode to no instruction are those of a reserved class, and of a class whose table has no
such operation. -/
def Obligations.ReservedWords : Prop :=
  ∀ (c g : Nat) (w : Dword), (decodeThread c g w).isNone = true ↔
    ¬ ((w.toNat / 2 ^ 60, w.toNat / 2 ^ 54 % 64) ∈
      ([(0, List.range 8), (1, [0, 1, 2, 3, 4, 5, 6, 8, 9, 10, 12, 13, 14] ++ (List.range 10).map (· + 16)),
        (2, List.range 7), (3, List.range 10 ++ (List.range 6).map (· + 16) ++ (List.range 5).map (· + 32) ++ [40, 41, 42]),
        (4, List.range 32), (5, List.range 22), (6, [0]), (7, [0, 1]), (8, [0, 1, 2]), (9, [0])].flatMap
          fun x : Nat × List Nat => x.2.map fun o => (x.1, o)))

/-- Every step keeps the canonical form of memory: addresses rise and no listed byte is the one that an unlisted byte reads
as. The form is the model's own. -/
def Obligations.MemoryStaysCanonical : Prop :=
  ∀ s t : State, s.memOk → step s = .next t → t.memOk

/-- The effect of a command is on everything but the queue: whatever the command, the commands that wait stand. -/
def Obligations.QueueUntouched : Prop :=
  ∀ (i : Instr) (s t : State), Runs i s t → t.pending = s.pending

/-- Every command that names only units that the module has answers a next state, in every state: nothing stops the
module. -/
def Obligations.WellFormedCommandsRun : Prop :=
  ∀ (i : Instr) (s : State), WellFormed i = true → ∃ t, Runs i s t
end

