-- ==== Sys2Proof/Laws/Map.lean ====
section
/-! SUPPORT. Laws of sparse tables: a read after a write, and the canonical form. -/

namespace Sys2Proof.Machine

variable {α : Type}

/-! ### Reads after writes -/

@[simp] theorem mget?_mput_same (m : Map α) (k : Nat) (v : α) : mget? (mput m k v) k = some v := by
  unfold mget?
  induction m with
  | nil => simp [mput]
  | cons kv m ih =>
    obtain ⟨k', v'⟩ := kv
    unfold mput
    split
    · simp [List.lookup]
    · split
      · simp [List.lookup]
      · rename_i h
        have : (k == k') = false := by simp [h]
        simp [List.lookup, this, ih]

theorem mget?_mput_ne (m : Map α) {k j : Nat} (h : j ≠ k) (v : α) : mget? (mput m k v) j = mget? m j := by
  unfold mget?
  have hk : (j == k) = false := by simp [h]
  induction m with
  | nil => simp [mput, List.lookup, hk]
  | cons kv m ih =>
    obtain ⟨k', v'⟩ := kv
    unfold mput
    split
    · simp [List.lookup, hk]
    · split
      · rename_i e
        subst e
        simp [List.lookup, hk]
      · simp only [List.lookup, ih]

@[simp] theorem mget_mput_same (m : Map α) (d : α) (k : Nat) (v : α) : mget (mput m k v) d k = v := by
  have := mget?_mput_same m k v
  unfold mget? at this
  simp [mget, this]

theorem mget_mput_ne (m : Map α) (d : α) {k j : Nat} (h : j ≠ k) (v : α) :
    mget (mput m k v) d j = mget m d j := by
  have := mget?_mput_ne m h v
  unfold mget? at this
  simp [mget, this]

theorem mget?_mdel_ne (m : Map α) {k j : Nat} (h : j ≠ k) : mget? (mdel m k) j = mget? m j := by
  unfold mget? mdel
  have hk : (j == k) = false := by simp [h]
  induction m with
  | nil => rfl
  | cons kv m ih =>
    obtain ⟨k', v'⟩ := kv
    by_cases e : k' = k
    · subst e
      simp only [ne_eq, not_true_eq_false, decide_false, Bool.false_eq_true, not_false_eq_true, List.filter_cons_of_neg,
        List.lookup, hk]
      exact ih
    · simp only [ne_eq, e, not_false_eq_true, decide_true, List.filter_cons_of_pos, List.lookup]
      split
      · rfl
      · exact ih

/-- The keys of a table all lie above a number. -/
def Above (n : Nat) (m : Map α) : Prop := ∀ kv ∈ m, n < kv.1

theorem keysRise_cons (a : Nat) (x : α) (m : Map α) :
    keysRise ((a, x) :: m) = true ↔ Above a m ∧ keysRise m = true := by
  induction m generalizing a x with
  | nil => simp [keysRise, Above]
  | cons kv m ih =>
    obtain ⟨b, y⟩ := kv
    simp only [keysRise, Bool.and_eq_true, decide_eq_true_eq]
    constructor
    · rintro ⟨h, r⟩
      refine ⟨?_, r⟩
      intro kv hkv
      rcases List.mem_cons.1 hkv with e | e
      · simpa [e] using h
      · exact Nat.lt_trans h (((ih b y).1 r).1 kv e)
    · rintro ⟨h, r⟩
      exact ⟨h (b, y) (by simp), r⟩

theorem mget?_above {m : Map α} {k : Nat} (h : Above k m) : mget? m k = none := by
  unfold mget?
  induction m with
  | nil => rfl
  | cons kv m ih =>
    obtain ⟨k', v'⟩ := kv
    have : k < k' := h (k', v') (by simp)
    have e : (k == k') = false := by simp; omega
    simp only [List.lookup, e]
    exact ih fun x hx => h x (by simp [hx])

@[simp] theorem mget?_mdel_same (m : Map α) (k : Nat) : mget? (mdel m k) k = none := by
  unfold mget? mdel
  induction m with
  | nil => rfl
  | cons kv m ih =>
    obtain ⟨k', v'⟩ := kv
    by_cases e : k' = k
    · subst e
      simpa using ih
    · have hk : (k == k') = false := by simp; omega
      simp only [ne_eq, e, not_false_eq_true, decide_true, List.filter_cons_of_pos, List.lookup, hk]
      exact ih

@[simp] theorem mget_mset_same [DecidableEq α] (m : Map α) (d : α) (k : Nat) (v : α) :
    mget (mset m d k v) d k = v := by
  unfold mset
  split
  · rename_i e
    subst e
    have hm := mget?_mdel_same m k
    unfold mget? at hm
    unfold mget
    rw [hm]
    rfl
  · simp

theorem mget_mset_ne [DecidableEq α] (m : Map α) (d : α) {k j : Nat} (h : j ≠ k) (v : α) :
    mget (mset m d k v) d j = mget m d j := by
  unfold mset
  split
  · have := mget?_mdel_ne m h
    unfold mget? at this
    simp [mget, this]
  · exact mget_mput_ne m d h v

/-! ### The canonical form -/

theorem above_mput {n k : Nat} {m : Map α} (h : Above n m) (hk : n < k) (v : α) : Above n (mput m k v) := by
  induction m with
  | nil => intro x hx; simp [mput] at hx; simpa [hx] using hk
  | cons kv m ih =>
    obtain ⟨k', v'⟩ := kv
    have h' : Above n m := fun x hx => h x (by simp [hx])
    unfold mput
    split
    · intro x hx
      rcases List.mem_cons.1 hx with rfl | hx
      · exact hk
      · exact h x hx
    · split
      · intro x hx
        rcases List.mem_cons.1 hx with rfl | hx
        · exact hk
        · exact h' x hx
      · intro x hx
        rcases List.mem_cons.1 hx with rfl | hx
        · exact h (k', v') (by simp)
        · exact ih h' x hx

theorem keysRise_mput {m : Map α} (h : keysRise m = true) (k : Nat) (v : α) : keysRise (mput m k v) = true := by
  induction m with
  | nil => rfl
  | cons kv m ih =>
    obtain ⟨k', v'⟩ := kv
    have hh := (keysRise_cons k' v' m).1 h
    unfold mput
    split
    · rename_i lt
      refine (keysRise_cons k v _).2 ⟨?_, h⟩
      intro x hx
      rcases List.mem_cons.1 hx with rfl | hx
      · exact lt
      · exact Nat.lt_trans lt (hh.1 x hx)
    · split
      · rename_i e
        subst e
        exact (keysRise_cons k v _).2 hh
      · rename_i a b
        exact (keysRise_cons k' v' _).2 ⟨above_mput hh.1 (by omega) v, ih hh.2⟩

theorem mem_mdel {m : Map α} {k : Nat} {x : Nat × α} (h : x ∈ mdel m k) : x ∈ m :=
  (List.mem_filter.1 h).1

theorem keysRise_filter {m : Map α} (h : keysRise m = true) (p : Nat × α → Bool) : keysRise (m.filter p) = true := by
  induction m with
  | nil => rfl
  | cons kv m ih =>
    obtain ⟨k', v'⟩ := kv
    have hh := (keysRise_cons k' v' m).1 h
    simp only [List.filter]
    split
    · exact (keysRise_cons k' v' _).2 ⟨fun x hx => hh.1 x (List.mem_filter.1 hx).1, ih hh.2⟩
    · exact ih hh.2

theorem keysRise_mdel {m : Map α} (h : keysRise m = true) (k : Nat) : keysRise (mdel m k) = true :=
  keysRise_filter h _

theorem mem_mput {m : Map α} {k : Nat} {v : α} {x : Nat × α} (h : x ∈ mput m k v) : x = (k, v) ∨ x ∈ m := by
  induction m with
  | nil => simp [mput] at h; exact .inl h
  | cons kv m ih =>
    obtain ⟨k', v'⟩ := kv
    unfold mput at h
    split at h
    · rcases List.mem_cons.1 h with e | e
      · exact .inl e
      · exact .inr e
    · split at h
      · rcases List.mem_cons.1 h with e | e
        · exact .inl e
        · exact .inr (List.mem_cons.2 (.inr e))
      · rcases List.mem_cons.1 h with e | e
        · exact .inr (List.mem_cons.2 (.inl e))
        · rcases ih e with e | e
          · exact .inl e
          · exact .inr (List.mem_cons.2 (.inr e))

theorem mapWf_iff [DecidableEq α] (d : α) (m : Map α) :
    mapWf d m = true ↔ keysRise m = true ∧ ∀ kv ∈ m, kv.2 ≠ d := by
  simp [mapWf]

theorem mapWf_mset [DecidableEq α] {d : α} {m : Map α} (h : mapWf d m = true) (k : Nat) (v : α) :
    mapWf d (mset m d k v) = true := by
  rw [mapWf_iff] at h ⊢
  unfold mset
  split
  · exact ⟨keysRise_mdel h.1 k, fun x hx => h.2 x (mem_mdel hx)⟩
  · rename_i hv
    refine ⟨keysRise_mput h.1 k v, fun x hx => ?_⟩
    rcases mem_mput hx with rfl | hx
    · exact hv
    · exact h.2 x hx

theorem mapWf_filter [DecidableEq α] {d : α} {m : Map α} (h : mapWf d m = true) (p : Nat × α → Bool) :
    mapWf d (m.filter p) = true := by
  rw [mapWf_iff] at h ⊢
  exact ⟨keysRise_filter h.1 p, fun x hx => h.2 x (List.mem_filter.1 hx).1⟩

/-! ### Byte order (R9) -/

@[simp] theorem leBytes_length (n v : Nat) : (leBytes n v).length = n := by
  induction n generalizing v with
  | zero => rfl
  | succ n ih => simp [leBytes, ih]

theorem leVal_leBytes (n v : Nat) : leVal (leBytes n v) = v % 256 ^ n := by
  induction n generalizing v with
  | zero => simp [leBytes, leVal, Nat.mod_one]
  | succ n ih =>
    simp only [leBytes, leVal, ih, BitVec.toNat_ofNat]
    rw [Nat.pow_succ (n := 256), Nat.mul_comm (256 ^ n) 256, Nat.mod_mul]

end Sys2Proof.Machine
end

