-- ==== Sys2Proof/Laws/State.lean ====
section
/-! SUPPORT. What each update of a part of the state reads back as: one lemma per field per update, so that no
later proof unfolds a record update. -/

namespace Sys2Proof.Machine

/-! ### setCore -/

@[simp] theorem setCore_pending (s : State) (c : Nat) (k : Core) : (setCore s c k).pending = s.pending := rfl
@[simp] theorem setCore_out (s : State) (c : Nat) (k : Core) : (setCore s c k).out = s.out := rfl
@[simp] theorem setCore_freeIx (s : State) (c : Nat) (k : Core) : (setCore s c k).freeIx = s.freeIx := rfl
@[simp] theorem setCore_refCnt (s : State) (c : Nat) (k : Core) : (setCore s c k).refCnt = s.refCnt := rfl
@[simp] theorem setCore_mem (s : State) (c : Nat) (k : Core) : (setCore s c k).mem = s.mem := rfl
@[simp] theorem setCore_bad (s : State) (c : Nat) (k : Core) : (setCore s c k).bad = s.bad := rfl
@[simp] theorem setCore_cores (s : State) (c : Nat) (k : Core) : (setCore s c k).cores = mput s.cores c k := rfl
@[simp] theorem setCore_remap (s : State) (c : Nat) (k : Core) : (setCore s c k).remap = s.remap := rfl
@[simp] theorem setCore_vatFail (s : State) (c : Nat) (k : Core) : (setCore s c k).vatFail = s.vatFail := rfl
@[simp] theorem setCore_tests (s : State) (c : Nat) (k : Core) : (setCore s c k).tests = s.tests := rfl
@[simp] theorem setCore_physCnt (s : State) (c : Nat) (k : Core) : (setCore s c k).physCnt = s.physCnt := rfl
@[simp] theorem setCore_fltCnt (s : State) (c : Nat) (k : Core) : (setCore s c k).fltCnt = s.fltCnt := rfl
@[simp] theorem setCore_dutyFb (s : State) (c : Nat) (k : Core) : (setCore s c k).dutyFb = s.dutyFb := rfl
@[simp] theorem setCore_ladles (s : State) (c : Nat) (k : Core) : (setCore s c k).ladles = s.ladles := rfl
@[simp] theorem setCore_hubLadles (s : State) (c : Nat) (k : Core) : (setCore s c k).hubLadles = s.hubLadles := rfl
@[simp] theorem setCore_ladleOrder (s : State) (c : Nat) (k : Core) : (setCore s c k).ladleOrder = s.ladleOrder := rfl
@[simp] theorem setCore_ladleLast (s : State) (c : Nat) (k : Core) : (setCore s c k).ladleLast = s.ladleLast := rfl
@[simp] theorem setCore_vatSeq (s : State) (c : Nat) (k : Core) : (setCore s c k).vatSeq = s.vatSeq := rfl
@[simp] theorem setCore_ports (s : State) (c : Nat) (k : Core) : (setCore s c k).ports = s.ports := rfl
@[simp] theorem setCore_fab (s : State) (c : Nat) (k : Core) : (setCore s c k).fab = s.fab := rfl
@[simp] theorem setCore_hoop (s : State) (c : Nat) (k : Core) : (setCore s c k).hoop = s.hoop := rfl
@[simp] theorem setCore_turn (s : State) (c : Nat) (k : Core) : (setCore s c k).turn = s.turn := rfl
@[simp] theorem setCore_obj (s : State) (c : Nat) (k : Core) : (setCore s c k).obj = s.obj := rfl
@[simp] theorem setCore_qw (s : State) (c : Nat) (k : Core) : (setCore s c k).qw = s.qw := rfl
@[simp] theorem setCore_start (s : State) (c : Nat) (k : Core) : (setCore s c k).start = s.start := rfl
@[simp] theorem setCore_clk (s : State) (c : Nat) (k : Core) : (setCore s c k).clk = s.clk := rfl
@[simp] theorem setCore_pow (s : State) (c : Nat) (k : Core) : (setCore s c k).pow = s.pow := rfl
@[simp] theorem setCore_memCtl (s : State) (c : Nat) (k : Core) : (setCore s c k).memCtl = s.memCtl := rfl
@[simp] theorem setCore_triage (s : State) (c : Nat) (k : Core) : (setCore s c k).triage = s.triage := rfl
@[simp] theorem setCore_meter (s : State) (c : Nat) (k : Core) : (setCore s c k).meter = s.meter := rfl
@[simp] theorem setCore_bscan (s : State) (c : Nat) (k : Core) : (setCore s c k).bscan = s.bscan := rfl
@[simp] theorem setCore_extest (s : State) (c : Nat) (k : Core) : (setCore s c k).extest = s.extest := rfl
@[simp] theorem setCore_eths (s : State) (c : Nat) (k : Core) : (setCore s c k).eths = s.eths := rfl
@[simp] theorem setCore_pcies (s : State) (c : Nat) (k : Core) : (setCore s c k).pcies = s.pcies := rfl

/-! ### modCore -/

@[simp] theorem modCore_pending (s : State) (c : Nat) (f : Core → Core) : (modCore s c f).pending = s.pending := rfl
@[simp] theorem modCore_out (s : State) (c : Nat) (f : Core → Core) : (modCore s c f).out = s.out := rfl
@[simp] theorem modCore_freeIx (s : State) (c : Nat) (f : Core → Core) : (modCore s c f).freeIx = s.freeIx := rfl
@[simp] theorem modCore_refCnt (s : State) (c : Nat) (f : Core → Core) : (modCore s c f).refCnt = s.refCnt := rfl
@[simp] theorem modCore_mem (s : State) (c : Nat) (f : Core → Core) : (modCore s c f).mem = s.mem := rfl
@[simp] theorem modCore_bad (s : State) (c : Nat) (f : Core → Core) : (modCore s c f).bad = s.bad := rfl
@[simp] theorem modCore_cores (s : State) (c : Nat) (f : Core → Core) : (modCore s c f).cores = mput s.cores c (f (coreOf s c)) := rfl
@[simp] theorem modCore_remap (s : State) (c : Nat) (f : Core → Core) : (modCore s c f).remap = s.remap := rfl
@[simp] theorem modCore_vatFail (s : State) (c : Nat) (f : Core → Core) : (modCore s c f).vatFail = s.vatFail := rfl
@[simp] theorem modCore_tests (s : State) (c : Nat) (f : Core → Core) : (modCore s c f).tests = s.tests := rfl
@[simp] theorem modCore_physCnt (s : State) (c : Nat) (f : Core → Core) : (modCore s c f).physCnt = s.physCnt := rfl
@[simp] theorem modCore_fltCnt (s : State) (c : Nat) (f : Core → Core) : (modCore s c f).fltCnt = s.fltCnt := rfl
@[simp] theorem modCore_dutyFb (s : State) (c : Nat) (f : Core → Core) : (modCore s c f).dutyFb = s.dutyFb := rfl
@[simp] theorem modCore_ladles (s : State) (c : Nat) (f : Core → Core) : (modCore s c f).ladles = s.ladles := rfl
@[simp] theorem modCore_hubLadles (s : State) (c : Nat) (f : Core → Core) : (modCore s c f).hubLadles = s.hubLadles := rfl
@[simp] theorem modCore_ladleOrder (s : State) (c : Nat) (f : Core → Core) : (modCore s c f).ladleOrder = s.ladleOrder := rfl
@[simp] theorem modCore_ladleLast (s : State) (c : Nat) (f : Core → Core) : (modCore s c f).ladleLast = s.ladleLast := rfl
@[simp] theorem modCore_vatSeq (s : State) (c : Nat) (f : Core → Core) : (modCore s c f).vatSeq = s.vatSeq := rfl
@[simp] theorem modCore_ports (s : State) (c : Nat) (f : Core → Core) : (modCore s c f).ports = s.ports := rfl
@[simp] theorem modCore_fab (s : State) (c : Nat) (f : Core → Core) : (modCore s c f).fab = s.fab := rfl
@[simp] theorem modCore_hoop (s : State) (c : Nat) (f : Core → Core) : (modCore s c f).hoop = s.hoop := rfl
@[simp] theorem modCore_turn (s : State) (c : Nat) (f : Core → Core) : (modCore s c f).turn = s.turn := rfl
@[simp] theorem modCore_obj (s : State) (c : Nat) (f : Core → Core) : (modCore s c f).obj = s.obj := rfl
@[simp] theorem modCore_qw (s : State) (c : Nat) (f : Core → Core) : (modCore s c f).qw = s.qw := rfl
@[simp] theorem modCore_start (s : State) (c : Nat) (f : Core → Core) : (modCore s c f).start = s.start := rfl
@[simp] theorem modCore_clk (s : State) (c : Nat) (f : Core → Core) : (modCore s c f).clk = s.clk := rfl
@[simp] theorem modCore_pow (s : State) (c : Nat) (f : Core → Core) : (modCore s c f).pow = s.pow := rfl
@[simp] theorem modCore_memCtl (s : State) (c : Nat) (f : Core → Core) : (modCore s c f).memCtl = s.memCtl := rfl
@[simp] theorem modCore_triage (s : State) (c : Nat) (f : Core → Core) : (modCore s c f).triage = s.triage := rfl
@[simp] theorem modCore_meter (s : State) (c : Nat) (f : Core → Core) : (modCore s c f).meter = s.meter := rfl
@[simp] theorem modCore_bscan (s : State) (c : Nat) (f : Core → Core) : (modCore s c f).bscan = s.bscan := rfl
@[simp] theorem modCore_extest (s : State) (c : Nat) (f : Core → Core) : (modCore s c f).extest = s.extest := rfl
@[simp] theorem modCore_eths (s : State) (c : Nat) (f : Core → Core) : (modCore s c f).eths = s.eths := rfl
@[simp] theorem modCore_pcies (s : State) (c : Nat) (f : Core → Core) : (modCore s c f).pcies = s.pcies := rfl

/-! ### setPort -/

@[simp] theorem setPort_pending (s : State) (p : Nat) (q : Port) : (setPort s p q).pending = s.pending := rfl
@[simp] theorem setPort_out (s : State) (p : Nat) (q : Port) : (setPort s p q).out = s.out := rfl
@[simp] theorem setPort_freeIx (s : State) (p : Nat) (q : Port) : (setPort s p q).freeIx = s.freeIx := rfl
@[simp] theorem setPort_refCnt (s : State) (p : Nat) (q : Port) : (setPort s p q).refCnt = s.refCnt := rfl
@[simp] theorem setPort_mem (s : State) (p : Nat) (q : Port) : (setPort s p q).mem = s.mem := rfl
@[simp] theorem setPort_bad (s : State) (p : Nat) (q : Port) : (setPort s p q).bad = s.bad := rfl
@[simp] theorem setPort_cores (s : State) (p : Nat) (q : Port) : (setPort s p q).cores = s.cores := rfl
@[simp] theorem setPort_remap (s : State) (p : Nat) (q : Port) : (setPort s p q).remap = s.remap := rfl
@[simp] theorem setPort_vatFail (s : State) (p : Nat) (q : Port) : (setPort s p q).vatFail = s.vatFail := rfl
@[simp] theorem setPort_tests (s : State) (p : Nat) (q : Port) : (setPort s p q).tests = s.tests := rfl
@[simp] theorem setPort_physCnt (s : State) (p : Nat) (q : Port) : (setPort s p q).physCnt = s.physCnt := rfl
@[simp] theorem setPort_fltCnt (s : State) (p : Nat) (q : Port) : (setPort s p q).fltCnt = s.fltCnt := rfl
@[simp] theorem setPort_dutyFb (s : State) (p : Nat) (q : Port) : (setPort s p q).dutyFb = s.dutyFb := rfl
@[simp] theorem setPort_ladles (s : State) (p : Nat) (q : Port) : (setPort s p q).ladles = s.ladles := rfl
@[simp] theorem setPort_hubLadles (s : State) (p : Nat) (q : Port) : (setPort s p q).hubLadles = s.hubLadles := rfl
@[simp] theorem setPort_ladleOrder (s : State) (p : Nat) (q : Port) : (setPort s p q).ladleOrder = s.ladleOrder := rfl
@[simp] theorem setPort_ladleLast (s : State) (p : Nat) (q : Port) : (setPort s p q).ladleLast = s.ladleLast := rfl
@[simp] theorem setPort_vatSeq (s : State) (p : Nat) (q : Port) : (setPort s p q).vatSeq = s.vatSeq := rfl
@[simp] theorem setPort_ports (s : State) (p : Nat) (q : Port) : (setPort s p q).ports = mput s.ports p q := rfl
@[simp] theorem setPort_fab (s : State) (p : Nat) (q : Port) : (setPort s p q).fab = s.fab := rfl
@[simp] theorem setPort_hoop (s : State) (p : Nat) (q : Port) : (setPort s p q).hoop = s.hoop := rfl
@[simp] theorem setPort_turn (s : State) (p : Nat) (q : Port) : (setPort s p q).turn = s.turn := rfl
@[simp] theorem setPort_obj (s : State) (p : Nat) (q : Port) : (setPort s p q).obj = s.obj := rfl
@[simp] theorem setPort_qw (s : State) (p : Nat) (q : Port) : (setPort s p q).qw = s.qw := rfl
@[simp] theorem setPort_start (s : State) (p : Nat) (q : Port) : (setPort s p q).start = s.start := rfl
@[simp] theorem setPort_clk (s : State) (p : Nat) (q : Port) : (setPort s p q).clk = s.clk := rfl
@[simp] theorem setPort_pow (s : State) (p : Nat) (q : Port) : (setPort s p q).pow = s.pow := rfl
@[simp] theorem setPort_memCtl (s : State) (p : Nat) (q : Port) : (setPort s p q).memCtl = s.memCtl := rfl
@[simp] theorem setPort_triage (s : State) (p : Nat) (q : Port) : (setPort s p q).triage = s.triage := rfl
@[simp] theorem setPort_meter (s : State) (p : Nat) (q : Port) : (setPort s p q).meter = s.meter := rfl
@[simp] theorem setPort_bscan (s : State) (p : Nat) (q : Port) : (setPort s p q).bscan = s.bscan := rfl
@[simp] theorem setPort_extest (s : State) (p : Nat) (q : Port) : (setPort s p q).extest = s.extest := rfl
@[simp] theorem setPort_eths (s : State) (p : Nat) (q : Port) : (setPort s p q).eths = s.eths := rfl
@[simp] theorem setPort_pcies (s : State) (p : Nat) (q : Port) : (setPort s p q).pcies = s.pcies := rfl

/-! ### modPort -/

@[simp] theorem modPort_pending (s : State) (p : Nat) (f : Port → Port) : (modPort s p f).pending = s.pending := rfl
@[simp] theorem modPort_out (s : State) (p : Nat) (f : Port → Port) : (modPort s p f).out = s.out := rfl
@[simp] theorem modPort_freeIx (s : State) (p : Nat) (f : Port → Port) : (modPort s p f).freeIx = s.freeIx := rfl
@[simp] theorem modPort_refCnt (s : State) (p : Nat) (f : Port → Port) : (modPort s p f).refCnt = s.refCnt := rfl
@[simp] theorem modPort_mem (s : State) (p : Nat) (f : Port → Port) : (modPort s p f).mem = s.mem := rfl
@[simp] theorem modPort_bad (s : State) (p : Nat) (f : Port → Port) : (modPort s p f).bad = s.bad := rfl
@[simp] theorem modPort_cores (s : State) (p : Nat) (f : Port → Port) : (modPort s p f).cores = s.cores := rfl
@[simp] theorem modPort_remap (s : State) (p : Nat) (f : Port → Port) : (modPort s p f).remap = s.remap := rfl
@[simp] theorem modPort_vatFail (s : State) (p : Nat) (f : Port → Port) : (modPort s p f).vatFail = s.vatFail := rfl
@[simp] theorem modPort_tests (s : State) (p : Nat) (f : Port → Port) : (modPort s p f).tests = s.tests := rfl
@[simp] theorem modPort_physCnt (s : State) (p : Nat) (f : Port → Port) : (modPort s p f).physCnt = s.physCnt := rfl
@[simp] theorem modPort_fltCnt (s : State) (p : Nat) (f : Port → Port) : (modPort s p f).fltCnt = s.fltCnt := rfl
@[simp] theorem modPort_dutyFb (s : State) (p : Nat) (f : Port → Port) : (modPort s p f).dutyFb = s.dutyFb := rfl
@[simp] theorem modPort_ladles (s : State) (p : Nat) (f : Port → Port) : (modPort s p f).ladles = s.ladles := rfl
@[simp] theorem modPort_hubLadles (s : State) (p : Nat) (f : Port → Port) : (modPort s p f).hubLadles = s.hubLadles := rfl
@[simp] theorem modPort_ladleOrder (s : State) (p : Nat) (f : Port → Port) : (modPort s p f).ladleOrder = s.ladleOrder := rfl
@[simp] theorem modPort_ladleLast (s : State) (p : Nat) (f : Port → Port) : (modPort s p f).ladleLast = s.ladleLast := rfl
@[simp] theorem modPort_vatSeq (s : State) (p : Nat) (f : Port → Port) : (modPort s p f).vatSeq = s.vatSeq := rfl
@[simp] theorem modPort_ports (s : State) (p : Nat) (f : Port → Port) : (modPort s p f).ports = mput s.ports p (f (portOf s p)) := rfl
@[simp] theorem modPort_fab (s : State) (p : Nat) (f : Port → Port) : (modPort s p f).fab = s.fab := rfl
@[simp] theorem modPort_hoop (s : State) (p : Nat) (f : Port → Port) : (modPort s p f).hoop = s.hoop := rfl
@[simp] theorem modPort_turn (s : State) (p : Nat) (f : Port → Port) : (modPort s p f).turn = s.turn := rfl
@[simp] theorem modPort_obj (s : State) (p : Nat) (f : Port → Port) : (modPort s p f).obj = s.obj := rfl
@[simp] theorem modPort_qw (s : State) (p : Nat) (f : Port → Port) : (modPort s p f).qw = s.qw := rfl
@[simp] theorem modPort_start (s : State) (p : Nat) (f : Port → Port) : (modPort s p f).start = s.start := rfl
@[simp] theorem modPort_clk (s : State) (p : Nat) (f : Port → Port) : (modPort s p f).clk = s.clk := rfl
@[simp] theorem modPort_pow (s : State) (p : Nat) (f : Port → Port) : (modPort s p f).pow = s.pow := rfl
@[simp] theorem modPort_memCtl (s : State) (p : Nat) (f : Port → Port) : (modPort s p f).memCtl = s.memCtl := rfl
@[simp] theorem modPort_triage (s : State) (p : Nat) (f : Port → Port) : (modPort s p f).triage = s.triage := rfl
@[simp] theorem modPort_meter (s : State) (p : Nat) (f : Port → Port) : (modPort s p f).meter = s.meter := rfl
@[simp] theorem modPort_bscan (s : State) (p : Nat) (f : Port → Port) : (modPort s p f).bscan = s.bscan := rfl
@[simp] theorem modPort_extest (s : State) (p : Nat) (f : Port → Port) : (modPort s p f).extest = s.extest := rfl
@[simp] theorem modPort_eths (s : State) (p : Nat) (f : Port → Port) : (modPort s p f).eths = s.eths := rfl
@[simp] theorem modPort_pcies (s : State) (p : Nat) (f : Port → Port) : (modPort s p f).pcies = s.pcies := rfl

/-! ### emit -/

@[simp] theorem emit_pending (s : State) (o : Out) : (emit s o).pending = s.pending := rfl
@[simp] theorem emit_out (s : State) (o : Out) : (emit s o).out = s.out ++ [o] := rfl
@[simp] theorem emit_freeIx (s : State) (o : Out) : (emit s o).freeIx = s.freeIx := rfl
@[simp] theorem emit_refCnt (s : State) (o : Out) : (emit s o).refCnt = s.refCnt := rfl
@[simp] theorem emit_mem (s : State) (o : Out) : (emit s o).mem = s.mem := rfl
@[simp] theorem emit_bad (s : State) (o : Out) : (emit s o).bad = s.bad := rfl
@[simp] theorem emit_cores (s : State) (o : Out) : (emit s o).cores = s.cores := rfl
@[simp] theorem emit_remap (s : State) (o : Out) : (emit s o).remap = s.remap := rfl
@[simp] theorem emit_vatFail (s : State) (o : Out) : (emit s o).vatFail = s.vatFail := rfl
@[simp] theorem emit_tests (s : State) (o : Out) : (emit s o).tests = s.tests := rfl
@[simp] theorem emit_physCnt (s : State) (o : Out) : (emit s o).physCnt = s.physCnt := rfl
@[simp] theorem emit_fltCnt (s : State) (o : Out) : (emit s o).fltCnt = s.fltCnt := rfl
@[simp] theorem emit_dutyFb (s : State) (o : Out) : (emit s o).dutyFb = s.dutyFb := rfl
@[simp] theorem emit_ladles (s : State) (o : Out) : (emit s o).ladles = s.ladles := rfl
@[simp] theorem emit_hubLadles (s : State) (o : Out) : (emit s o).hubLadles = s.hubLadles := rfl
@[simp] theorem emit_ladleOrder (s : State) (o : Out) : (emit s o).ladleOrder = s.ladleOrder := rfl
@[simp] theorem emit_ladleLast (s : State) (o : Out) : (emit s o).ladleLast = s.ladleLast := rfl
@[simp] theorem emit_vatSeq (s : State) (o : Out) : (emit s o).vatSeq = s.vatSeq := rfl
@[simp] theorem emit_ports (s : State) (o : Out) : (emit s o).ports = s.ports := rfl
@[simp] theorem emit_fab (s : State) (o : Out) : (emit s o).fab = s.fab := rfl
@[simp] theorem emit_hoop (s : State) (o : Out) : (emit s o).hoop = s.hoop := rfl
@[simp] theorem emit_turn (s : State) (o : Out) : (emit s o).turn = s.turn := rfl
@[simp] theorem emit_obj (s : State) (o : Out) : (emit s o).obj = s.obj := rfl
@[simp] theorem emit_qw (s : State) (o : Out) : (emit s o).qw = s.qw := rfl
@[simp] theorem emit_start (s : State) (o : Out) : (emit s o).start = s.start := rfl
@[simp] theorem emit_clk (s : State) (o : Out) : (emit s o).clk = s.clk := rfl
@[simp] theorem emit_pow (s : State) (o : Out) : (emit s o).pow = s.pow := rfl
@[simp] theorem emit_memCtl (s : State) (o : Out) : (emit s o).memCtl = s.memCtl := rfl
@[simp] theorem emit_triage (s : State) (o : Out) : (emit s o).triage = s.triage := rfl
@[simp] theorem emit_meter (s : State) (o : Out) : (emit s o).meter = s.meter := rfl
@[simp] theorem emit_bscan (s : State) (o : Out) : (emit s o).bscan = s.bscan := rfl
@[simp] theorem emit_extest (s : State) (o : Out) : (emit s o).extest = s.extest := rfl
@[simp] theorem emit_eths (s : State) (o : Out) : (emit s o).eths = s.eths := rfl
@[simp] theorem emit_pcies (s : State) (o : Out) : (emit s o).pcies = s.pcies := rfl

/-! ### drawn -/

@[simp] theorem drawn_pending (s : State) : (drawn s).pending = s.pending := rfl
@[simp] theorem drawn_out (s : State) : (drawn s).out = s.out := rfl
@[simp] theorem drawn_freeIx (s : State) : (drawn s).freeIx = s.freeIx + 1 := rfl
@[simp] theorem drawn_refCnt (s : State) : (drawn s).refCnt = s.refCnt := rfl
@[simp] theorem drawn_mem (s : State) : (drawn s).mem = s.mem := rfl
@[simp] theorem drawn_bad (s : State) : (drawn s).bad = s.bad := rfl
@[simp] theorem drawn_cores (s : State) : (drawn s).cores = s.cores := rfl
@[simp] theorem drawn_remap (s : State) : (drawn s).remap = s.remap := rfl
@[simp] theorem drawn_vatFail (s : State) : (drawn s).vatFail = s.vatFail := rfl
@[simp] theorem drawn_tests (s : State) : (drawn s).tests = s.tests := rfl
@[simp] theorem drawn_physCnt (s : State) : (drawn s).physCnt = s.physCnt := rfl
@[simp] theorem drawn_fltCnt (s : State) : (drawn s).fltCnt = s.fltCnt := rfl
@[simp] theorem drawn_dutyFb (s : State) : (drawn s).dutyFb = s.dutyFb := rfl
@[simp] theorem drawn_ladles (s : State) : (drawn s).ladles = s.ladles := rfl
@[simp] theorem drawn_hubLadles (s : State) : (drawn s).hubLadles = s.hubLadles := rfl
@[simp] theorem drawn_ladleOrder (s : State) : (drawn s).ladleOrder = s.ladleOrder := rfl
@[simp] theorem drawn_ladleLast (s : State) : (drawn s).ladleLast = s.ladleLast := rfl
@[simp] theorem drawn_vatSeq (s : State) : (drawn s).vatSeq = s.vatSeq := rfl
@[simp] theorem drawn_ports (s : State) : (drawn s).ports = s.ports := rfl
@[simp] theorem drawn_fab (s : State) : (drawn s).fab = s.fab := rfl
@[simp] theorem drawn_hoop (s : State) : (drawn s).hoop = s.hoop := rfl
@[simp] theorem drawn_turn (s : State) : (drawn s).turn = s.turn := rfl
@[simp] theorem drawn_obj (s : State) : (drawn s).obj = s.obj := rfl
@[simp] theorem drawn_qw (s : State) : (drawn s).qw = s.qw := rfl
@[simp] theorem drawn_start (s : State) : (drawn s).start = s.start := rfl
@[simp] theorem drawn_clk (s : State) : (drawn s).clk = s.clk := rfl
@[simp] theorem drawn_pow (s : State) : (drawn s).pow = s.pow := rfl
@[simp] theorem drawn_memCtl (s : State) : (drawn s).memCtl = s.memCtl := rfl
@[simp] theorem drawn_triage (s : State) : (drawn s).triage = s.triage := rfl
@[simp] theorem drawn_meter (s : State) : (drawn s).meter = s.meter := rfl
@[simp] theorem drawn_bscan (s : State) : (drawn s).bscan = s.bscan := rfl
@[simp] theorem drawn_extest (s : State) : (drawn s).extest = s.extest := rfl
@[simp] theorem drawn_eths (s : State) : (drawn s).eths = s.eths := rfl
@[simp] theorem drawn_pcies (s : State) : (drawn s).pcies = s.pcies := rfl

/-! ### attn -/

@[simp] theorem attn_pending (s : State) (x : FaultInfo) : (attn s x).pending = s.pending := rfl
@[simp] theorem attn_out (s : State) (x : FaultInfo) : (attn s x).out = s.out := rfl
@[simp] theorem attn_freeIx (s : State) (x : FaultInfo) : (attn s x).freeIx = s.freeIx := rfl
@[simp] theorem attn_refCnt (s : State) (x : FaultInfo) : (attn s x).refCnt = s.refCnt := rfl
@[simp] theorem attn_mem (s : State) (x : FaultInfo) : (attn s x).mem = s.mem := rfl
@[simp] theorem attn_bad (s : State) (x : FaultInfo) : (attn s x).bad = s.bad := rfl
@[simp] theorem attn_cores (s : State) (x : FaultInfo) : (attn s x).cores = s.cores := rfl
@[simp] theorem attn_remap (s : State) (x : FaultInfo) : (attn s x).remap = s.remap := rfl
@[simp] theorem attn_vatFail (s : State) (x : FaultInfo) : (attn s x).vatFail = s.vatFail := rfl
@[simp] theorem attn_tests (s : State) (x : FaultInfo) : (attn s x).tests = s.tests := rfl
@[simp] theorem attn_physCnt (s : State) (x : FaultInfo) : (attn s x).physCnt = s.physCnt := rfl
@[simp] theorem attn_fltCnt (s : State) (x : FaultInfo) : (attn s x).fltCnt = s.fltCnt := rfl
@[simp] theorem attn_dutyFb (s : State) (x : FaultInfo) : (attn s x).dutyFb = s.dutyFb := rfl
@[simp] theorem attn_ladles (s : State) (x : FaultInfo) : (attn s x).ladles = s.ladles := rfl
@[simp] theorem attn_hubLadles (s : State) (x : FaultInfo) : (attn s x).hubLadles = s.hubLadles := rfl
@[simp] theorem attn_ladleOrder (s : State) (x : FaultInfo) : (attn s x).ladleOrder = s.ladleOrder := rfl
@[simp] theorem attn_ladleLast (s : State) (x : FaultInfo) : (attn s x).ladleLast = s.ladleLast := rfl
@[simp] theorem attn_vatSeq (s : State) (x : FaultInfo) : (attn s x).vatSeq = s.vatSeq := rfl
@[simp] theorem attn_ports (s : State) (x : FaultInfo) : (attn s x).ports = s.ports := rfl
@[simp] theorem attn_fab (s : State) (x : FaultInfo) : (attn s x).fab = s.fab := rfl
@[simp] theorem attn_hoop (s : State) (x : FaultInfo) : (attn s x).hoop = s.hoop := rfl
@[simp] theorem attn_turn (s : State) (x : FaultInfo) : (attn s x).turn = s.turn := rfl
@[simp] theorem attn_obj (s : State) (x : FaultInfo) : (attn s x).obj = s.obj := rfl
@[simp] theorem attn_qw (s : State) (x : FaultInfo) : (attn s x).qw = s.qw := rfl
@[simp] theorem attn_start (s : State) (x : FaultInfo) : (attn s x).start = s.start := rfl
@[simp] theorem attn_pow (s : State) (x : FaultInfo) : (attn s x).pow = s.pow := rfl
@[simp] theorem attn_memCtl (s : State) (x : FaultInfo) : (attn s x).memCtl = s.memCtl := rfl
@[simp] theorem attn_triage (s : State) (x : FaultInfo) : (attn s x).triage = { s.triage with attn := s.triage.attn ++ [x] } := rfl
@[simp] theorem attn_meter (s : State) (x : FaultInfo) : (attn s x).meter = s.meter := rfl
@[simp] theorem attn_bscan (s : State) (x : FaultInfo) : (attn s x).bscan = s.bscan := rfl
@[simp] theorem attn_extest (s : State) (x : FaultInfo) : (attn s x).extest = s.extest := rfl
@[simp] theorem attn_eths (s : State) (x : FaultInfo) : (attn s x).eths = s.eths := rfl
@[simp] theorem attn_pcies (s : State) (x : FaultInfo) : (attn s x).pcies = s.pcies := rfl

/-! ### setFallback -/

@[simp] theorem setFallback_pending (s : State) (fn : Nat) : (setFallback s fn).pending = s.pending := rfl
@[simp] theorem setFallback_out (s : State) (fn : Nat) : (setFallback s fn).out = s.out := rfl
@[simp] theorem setFallback_freeIx (s : State) (fn : Nat) : (setFallback s fn).freeIx = s.freeIx := rfl
@[simp] theorem setFallback_refCnt (s : State) (fn : Nat) : (setFallback s fn).refCnt = s.refCnt := rfl
@[simp] theorem setFallback_mem (s : State) (fn : Nat) : (setFallback s fn).mem = s.mem := rfl
@[simp] theorem setFallback_bad (s : State) (fn : Nat) : (setFallback s fn).bad = s.bad := rfl
@[simp] theorem setFallback_cores (s : State) (fn : Nat) : (setFallback s fn).cores = s.cores := rfl
@[simp] theorem setFallback_remap (s : State) (fn : Nat) : (setFallback s fn).remap = s.remap := rfl
@[simp] theorem setFallback_vatFail (s : State) (fn : Nat) : (setFallback s fn).vatFail = s.vatFail := rfl
@[simp] theorem setFallback_tests (s : State) (fn : Nat) : (setFallback s fn).tests = s.tests := rfl
@[simp] theorem setFallback_physCnt (s : State) (fn : Nat) : (setFallback s fn).physCnt = s.physCnt := rfl
@[simp] theorem setFallback_fltCnt (s : State) (fn : Nat) : (setFallback s fn).fltCnt = s.fltCnt := rfl
@[simp] theorem setFallback_ladles (s : State) (fn : Nat) : (setFallback s fn).ladles = s.ladles := rfl
@[simp] theorem setFallback_hubLadles (s : State) (fn : Nat) : (setFallback s fn).hubLadles = s.hubLadles := rfl
@[simp] theorem setFallback_ladleOrder (s : State) (fn : Nat) : (setFallback s fn).ladleOrder = s.ladleOrder := rfl
@[simp] theorem setFallback_ladleLast (s : State) (fn : Nat) : (setFallback s fn).ladleLast = s.ladleLast := rfl
@[simp] theorem setFallback_vatSeq (s : State) (fn : Nat) : (setFallback s fn).vatSeq = s.vatSeq := rfl
@[simp] theorem setFallback_ports (s : State) (fn : Nat) : (setFallback s fn).ports = s.ports := rfl
@[simp] theorem setFallback_fab (s : State) (fn : Nat) : (setFallback s fn).fab = s.fab := rfl
@[simp] theorem setFallback_hoop (s : State) (fn : Nat) : (setFallback s fn).hoop = s.hoop := rfl
@[simp] theorem setFallback_turn (s : State) (fn : Nat) : (setFallback s fn).turn = s.turn := rfl
@[simp] theorem setFallback_obj (s : State) (fn : Nat) : (setFallback s fn).obj = s.obj := rfl
@[simp] theorem setFallback_qw (s : State) (fn : Nat) : (setFallback s fn).qw = s.qw := rfl
@[simp] theorem setFallback_start (s : State) (fn : Nat) : (setFallback s fn).start = s.start := rfl
@[simp] theorem setFallback_clk (s : State) (fn : Nat) : (setFallback s fn).clk = s.clk := rfl
@[simp] theorem setFallback_pow (s : State) (fn : Nat) : (setFallback s fn).pow = s.pow := rfl
@[simp] theorem setFallback_memCtl (s : State) (fn : Nat) : (setFallback s fn).memCtl = s.memCtl := rfl
@[simp] theorem setFallback_triage (s : State) (fn : Nat) : (setFallback s fn).triage = s.triage := rfl
@[simp] theorem setFallback_meter (s : State) (fn : Nat) : (setFallback s fn).meter = s.meter := rfl
@[simp] theorem setFallback_bscan (s : State) (fn : Nat) : (setFallback s fn).bscan = s.bscan := rfl
@[simp] theorem setFallback_extest (s : State) (fn : Nat) : (setFallback s fn).extest = s.extest := rfl
@[simp] theorem setFallback_eths (s : State) (fn : Nat) : (setFallback s fn).eths = s.eths := rfl
@[simp] theorem setFallback_pcies (s : State) (fn : Nat) : (setFallback s fn).pcies = s.pcies := rfl

/-! ### modFab -/

@[simp] theorem modFab_pending (s : State) (f : Fabric → Fabric) : (modFab s f).pending = s.pending := rfl
@[simp] theorem modFab_out (s : State) (f : Fabric → Fabric) : (modFab s f).out = s.out := rfl
@[simp] theorem modFab_freeIx (s : State) (f : Fabric → Fabric) : (modFab s f).freeIx = s.freeIx := rfl
@[simp] theorem modFab_refCnt (s : State) (f : Fabric → Fabric) : (modFab s f).refCnt = s.refCnt := rfl
@[simp] theorem modFab_mem (s : State) (f : Fabric → Fabric) : (modFab s f).mem = s.mem := rfl
@[simp] theorem modFab_bad (s : State) (f : Fabric → Fabric) : (modFab s f).bad = s.bad := rfl
@[simp] theorem modFab_cores (s : State) (f : Fabric → Fabric) : (modFab s f).cores = s.cores := rfl
@[simp] theorem modFab_remap (s : State) (f : Fabric → Fabric) : (modFab s f).remap = s.remap := rfl
@[simp] theorem modFab_vatFail (s : State) (f : Fabric → Fabric) : (modFab s f).vatFail = s.vatFail := rfl
@[simp] theorem modFab_tests (s : State) (f : Fabric → Fabric) : (modFab s f).tests = s.tests := rfl
@[simp] theorem modFab_physCnt (s : State) (f : Fabric → Fabric) : (modFab s f).physCnt = s.physCnt := rfl
@[simp] theorem modFab_fltCnt (s : State) (f : Fabric → Fabric) : (modFab s f).fltCnt = s.fltCnt := rfl
@[simp] theorem modFab_dutyFb (s : State) (f : Fabric → Fabric) : (modFab s f).dutyFb = s.dutyFb := rfl
@[simp] theorem modFab_ladles (s : State) (f : Fabric → Fabric) : (modFab s f).ladles = s.ladles := rfl
@[simp] theorem modFab_hubLadles (s : State) (f : Fabric → Fabric) : (modFab s f).hubLadles = s.hubLadles := rfl
@[simp] theorem modFab_ladleOrder (s : State) (f : Fabric → Fabric) : (modFab s f).ladleOrder = s.ladleOrder := rfl
@[simp] theorem modFab_ladleLast (s : State) (f : Fabric → Fabric) : (modFab s f).ladleLast = s.ladleLast := rfl
@[simp] theorem modFab_vatSeq (s : State) (f : Fabric → Fabric) : (modFab s f).vatSeq = s.vatSeq := rfl
@[simp] theorem modFab_ports (s : State) (f : Fabric → Fabric) : (modFab s f).ports = s.ports := rfl
@[simp] theorem modFab_fab (s : State) (f : Fabric → Fabric) : (modFab s f).fab = f s.fab := rfl
@[simp] theorem modFab_hoop (s : State) (f : Fabric → Fabric) : (modFab s f).hoop = s.hoop := rfl
@[simp] theorem modFab_turn (s : State) (f : Fabric → Fabric) : (modFab s f).turn = s.turn := rfl
@[simp] theorem modFab_obj (s : State) (f : Fabric → Fabric) : (modFab s f).obj = s.obj := rfl
@[simp] theorem modFab_qw (s : State) (f : Fabric → Fabric) : (modFab s f).qw = s.qw := rfl
@[simp] theorem modFab_start (s : State) (f : Fabric → Fabric) : (modFab s f).start = s.start := rfl
@[simp] theorem modFab_clk (s : State) (f : Fabric → Fabric) : (modFab s f).clk = s.clk := rfl
@[simp] theorem modFab_pow (s : State) (f : Fabric → Fabric) : (modFab s f).pow = s.pow := rfl
@[simp] theorem modFab_memCtl (s : State) (f : Fabric → Fabric) : (modFab s f).memCtl = s.memCtl := rfl
@[simp] theorem modFab_triage (s : State) (f : Fabric → Fabric) : (modFab s f).triage = s.triage := rfl
@[simp] theorem modFab_meter (s : State) (f : Fabric → Fabric) : (modFab s f).meter = s.meter := rfl
@[simp] theorem modFab_bscan (s : State) (f : Fabric → Fabric) : (modFab s f).bscan = s.bscan := rfl
@[simp] theorem modFab_extest (s : State) (f : Fabric → Fabric) : (modFab s f).extest = s.extest := rfl
@[simp] theorem modFab_eths (s : State) (f : Fabric → Fabric) : (modFab s f).eths = s.eths := rfl
@[simp] theorem modFab_pcies (s : State) (f : Fabric → Fabric) : (modFab s f).pcies = s.pcies := rfl

/-! ### modHoop -/

@[simp] theorem modHoop_pending (s : State) (f : Hoop → Hoop) : (modHoop s f).pending = s.pending := rfl
@[simp] theorem modHoop_out (s : State) (f : Hoop → Hoop) : (modHoop s f).out = s.out := rfl
@[simp] theorem modHoop_freeIx (s : State) (f : Hoop → Hoop) : (modHoop s f).freeIx = s.freeIx := rfl
@[simp] theorem modHoop_refCnt (s : State) (f : Hoop → Hoop) : (modHoop s f).refCnt = s.refCnt := rfl
@[simp] theorem modHoop_mem (s : State) (f : Hoop → Hoop) : (modHoop s f).mem = s.mem := rfl
@[simp] theorem modHoop_bad (s : State) (f : Hoop → Hoop) : (modHoop s f).bad = s.bad := rfl
@[simp] theorem modHoop_cores (s : State) (f : Hoop → Hoop) : (modHoop s f).cores = s.cores := rfl
@[simp] theorem modHoop_remap (s : State) (f : Hoop → Hoop) : (modHoop s f).remap = s.remap := rfl
@[simp] theorem modHoop_vatFail (s : State) (f : Hoop → Hoop) : (modHoop s f).vatFail = s.vatFail := rfl
@[simp] theorem modHoop_tests (s : State) (f : Hoop → Hoop) : (modHoop s f).tests = s.tests := rfl
@[simp] theorem modHoop_physCnt (s : State) (f : Hoop → Hoop) : (modHoop s f).physCnt = s.physCnt := rfl
@[simp] theorem modHoop_fltCnt (s : State) (f : Hoop → Hoop) : (modHoop s f).fltCnt = s.fltCnt := rfl
@[simp] theorem modHoop_dutyFb (s : State) (f : Hoop → Hoop) : (modHoop s f).dutyFb = s.dutyFb := rfl
@[simp] theorem modHoop_ladles (s : State) (f : Hoop → Hoop) : (modHoop s f).ladles = s.ladles := rfl
@[simp] theorem modHoop_hubLadles (s : State) (f : Hoop → Hoop) : (modHoop s f).hubLadles = s.hubLadles := rfl
@[simp] theorem modHoop_ladleOrder (s : State) (f : Hoop → Hoop) : (modHoop s f).ladleOrder = s.ladleOrder := rfl
@[simp] theorem modHoop_ladleLast (s : State) (f : Hoop → Hoop) : (modHoop s f).ladleLast = s.ladleLast := rfl
@[simp] theorem modHoop_vatSeq (s : State) (f : Hoop → Hoop) : (modHoop s f).vatSeq = s.vatSeq := rfl
@[simp] theorem modHoop_ports (s : State) (f : Hoop → Hoop) : (modHoop s f).ports = s.ports := rfl
@[simp] theorem modHoop_fab (s : State) (f : Hoop → Hoop) : (modHoop s f).fab = s.fab := rfl
@[simp] theorem modHoop_hoop (s : State) (f : Hoop → Hoop) : (modHoop s f).hoop = f s.hoop := rfl
@[simp] theorem modHoop_turn (s : State) (f : Hoop → Hoop) : (modHoop s f).turn = s.turn := rfl
@[simp] theorem modHoop_obj (s : State) (f : Hoop → Hoop) : (modHoop s f).obj = s.obj := rfl
@[simp] theorem modHoop_qw (s : State) (f : Hoop → Hoop) : (modHoop s f).qw = s.qw := rfl
@[simp] theorem modHoop_start (s : State) (f : Hoop → Hoop) : (modHoop s f).start = s.start := rfl
@[simp] theorem modHoop_clk (s : State) (f : Hoop → Hoop) : (modHoop s f).clk = s.clk := rfl
@[simp] theorem modHoop_pow (s : State) (f : Hoop → Hoop) : (modHoop s f).pow = s.pow := rfl
@[simp] theorem modHoop_memCtl (s : State) (f : Hoop → Hoop) : (modHoop s f).memCtl = s.memCtl := rfl
@[simp] theorem modHoop_triage (s : State) (f : Hoop → Hoop) : (modHoop s f).triage = s.triage := rfl
@[simp] theorem modHoop_meter (s : State) (f : Hoop → Hoop) : (modHoop s f).meter = s.meter := rfl
@[simp] theorem modHoop_bscan (s : State) (f : Hoop → Hoop) : (modHoop s f).bscan = s.bscan := rfl
@[simp] theorem modHoop_extest (s : State) (f : Hoop → Hoop) : (modHoop s f).extest = s.extest := rfl
@[simp] theorem modHoop_eths (s : State) (f : Hoop → Hoop) : (modHoop s f).eths = s.eths := rfl
@[simp] theorem modHoop_pcies (s : State) (f : Hoop → Hoop) : (modHoop s f).pcies = s.pcies := rfl

/-! ### modTurn -/

@[simp] theorem modTurn_pending (s : State) (f : Turn → Turn) : (modTurn s f).pending = s.pending := rfl
@[simp] theorem modTurn_out (s : State) (f : Turn → Turn) : (modTurn s f).out = s.out := rfl
@[simp] theorem modTurn_freeIx (s : State) (f : Turn → Turn) : (modTurn s f).freeIx = s.freeIx := rfl
@[simp] theorem modTurn_refCnt (s : State) (f : Turn → Turn) : (modTurn s f).refCnt = s.refCnt := rfl
@[simp] theorem modTurn_mem (s : State) (f : Turn → Turn) : (modTurn s f).mem = s.mem := rfl
@[simp] theorem modTurn_bad (s : State) (f : Turn → Turn) : (modTurn s f).bad = s.bad := rfl
@[simp] theorem modTurn_cores (s : State) (f : Turn → Turn) : (modTurn s f).cores = s.cores := rfl
@[simp] theorem modTurn_remap (s : State) (f : Turn → Turn) : (modTurn s f).remap = s.remap := rfl
@[simp] theorem modTurn_vatFail (s : State) (f : Turn → Turn) : (modTurn s f).vatFail = s.vatFail := rfl
@[simp] theorem modTurn_tests (s : State) (f : Turn → Turn) : (modTurn s f).tests = s.tests := rfl
@[simp] theorem modTurn_physCnt (s : State) (f : Turn → Turn) : (modTurn s f).physCnt = s.physCnt := rfl
@[simp] theorem modTurn_fltCnt (s : State) (f : Turn → Turn) : (modTurn s f).fltCnt = s.fltCnt := rfl
@[simp] theorem modTurn_dutyFb (s : State) (f : Turn → Turn) : (modTurn s f).dutyFb = s.dutyFb := rfl
@[simp] theorem modTurn_ladles (s : State) (f : Turn → Turn) : (modTurn s f).ladles = s.ladles := rfl
@[simp] theorem modTurn_hubLadles (s : State) (f : Turn → Turn) : (modTurn s f).hubLadles = s.hubLadles := rfl
@[simp] theorem modTurn_ladleOrder (s : State) (f : Turn → Turn) : (modTurn s f).ladleOrder = s.ladleOrder := rfl
@[simp] theorem modTurn_ladleLast (s : State) (f : Turn → Turn) : (modTurn s f).ladleLast = s.ladleLast := rfl
@[simp] theorem modTurn_vatSeq (s : State) (f : Turn → Turn) : (modTurn s f).vatSeq = s.vatSeq := rfl
@[simp] theorem modTurn_ports (s : State) (f : Turn → Turn) : (modTurn s f).ports = s.ports := rfl
@[simp] theorem modTurn_fab (s : State) (f : Turn → Turn) : (modTurn s f).fab = s.fab := rfl
@[simp] theorem modTurn_hoop (s : State) (f : Turn → Turn) : (modTurn s f).hoop = s.hoop := rfl
@[simp] theorem modTurn_turn (s : State) (f : Turn → Turn) : (modTurn s f).turn = f s.turn := rfl
@[simp] theorem modTurn_obj (s : State) (f : Turn → Turn) : (modTurn s f).obj = s.obj := rfl
@[simp] theorem modTurn_qw (s : State) (f : Turn → Turn) : (modTurn s f).qw = s.qw := rfl
@[simp] theorem modTurn_start (s : State) (f : Turn → Turn) : (modTurn s f).start = s.start := rfl
@[simp] theorem modTurn_clk (s : State) (f : Turn → Turn) : (modTurn s f).clk = s.clk := rfl
@[simp] theorem modTurn_pow (s : State) (f : Turn → Turn) : (modTurn s f).pow = s.pow := rfl
@[simp] theorem modTurn_memCtl (s : State) (f : Turn → Turn) : (modTurn s f).memCtl = s.memCtl := rfl
@[simp] theorem modTurn_triage (s : State) (f : Turn → Turn) : (modTurn s f).triage = s.triage := rfl
@[simp] theorem modTurn_meter (s : State) (f : Turn → Turn) : (modTurn s f).meter = s.meter := rfl
@[simp] theorem modTurn_bscan (s : State) (f : Turn → Turn) : (modTurn s f).bscan = s.bscan := rfl
@[simp] theorem modTurn_extest (s : State) (f : Turn → Turn) : (modTurn s f).extest = s.extest := rfl
@[simp] theorem modTurn_eths (s : State) (f : Turn → Turn) : (modTurn s f).eths = s.eths := rfl
@[simp] theorem modTurn_pcies (s : State) (f : Turn → Turn) : (modTurn s f).pcies = s.pcies := rfl

/-! ### modObj -/

@[simp] theorem modObj_pending (s : State) (f : Objects → Objects) : (modObj s f).pending = s.pending := rfl
@[simp] theorem modObj_out (s : State) (f : Objects → Objects) : (modObj s f).out = s.out := rfl
@[simp] theorem modObj_freeIx (s : State) (f : Objects → Objects) : (modObj s f).freeIx = s.freeIx := rfl
@[simp] theorem modObj_refCnt (s : State) (f : Objects → Objects) : (modObj s f).refCnt = s.refCnt := rfl
@[simp] theorem modObj_mem (s : State) (f : Objects → Objects) : (modObj s f).mem = s.mem := rfl
@[simp] theorem modObj_bad (s : State) (f : Objects → Objects) : (modObj s f).bad = s.bad := rfl
@[simp] theorem modObj_cores (s : State) (f : Objects → Objects) : (modObj s f).cores = s.cores := rfl
@[simp] theorem modObj_remap (s : State) (f : Objects → Objects) : (modObj s f).remap = s.remap := rfl
@[simp] theorem modObj_vatFail (s : State) (f : Objects → Objects) : (modObj s f).vatFail = s.vatFail := rfl
@[simp] theorem modObj_tests (s : State) (f : Objects → Objects) : (modObj s f).tests = s.tests := rfl
@[simp] theorem modObj_physCnt (s : State) (f : Objects → Objects) : (modObj s f).physCnt = s.physCnt := rfl
@[simp] theorem modObj_fltCnt (s : State) (f : Objects → Objects) : (modObj s f).fltCnt = s.fltCnt := rfl
@[simp] theorem modObj_dutyFb (s : State) (f : Objects → Objects) : (modObj s f).dutyFb = s.dutyFb := rfl
@[simp] theorem modObj_ladles (s : State) (f : Objects → Objects) : (modObj s f).ladles = s.ladles := rfl
@[simp] theorem modObj_hubLadles (s : State) (f : Objects → Objects) : (modObj s f).hubLadles = s.hubLadles := rfl
@[simp] theorem modObj_ladleOrder (s : State) (f : Objects → Objects) : (modObj s f).ladleOrder = s.ladleOrder := rfl
@[simp] theorem modObj_ladleLast (s : State) (f : Objects → Objects) : (modObj s f).ladleLast = s.ladleLast := rfl
@[simp] theorem modObj_vatSeq (s : State) (f : Objects → Objects) : (modObj s f).vatSeq = s.vatSeq := rfl
@[simp] theorem modObj_ports (s : State) (f : Objects → Objects) : (modObj s f).ports = s.ports := rfl
@[simp] theorem modObj_fab (s : State) (f : Objects → Objects) : (modObj s f).fab = s.fab := rfl
@[simp] theorem modObj_hoop (s : State) (f : Objects → Objects) : (modObj s f).hoop = s.hoop := rfl
@[simp] theorem modObj_turn (s : State) (f : Objects → Objects) : (modObj s f).turn = s.turn := rfl
@[simp] theorem modObj_obj (s : State) (f : Objects → Objects) : (modObj s f).obj = f s.obj := rfl
@[simp] theorem modObj_qw (s : State) (f : Objects → Objects) : (modObj s f).qw = s.qw := rfl
@[simp] theorem modObj_start (s : State) (f : Objects → Objects) : (modObj s f).start = s.start := rfl
@[simp] theorem modObj_clk (s : State) (f : Objects → Objects) : (modObj s f).clk = s.clk := rfl
@[simp] theorem modObj_pow (s : State) (f : Objects → Objects) : (modObj s f).pow = s.pow := rfl
@[simp] theorem modObj_memCtl (s : State) (f : Objects → Objects) : (modObj s f).memCtl = s.memCtl := rfl
@[simp] theorem modObj_triage (s : State) (f : Objects → Objects) : (modObj s f).triage = s.triage := rfl
@[simp] theorem modObj_meter (s : State) (f : Objects → Objects) : (modObj s f).meter = s.meter := rfl
@[simp] theorem modObj_bscan (s : State) (f : Objects → Objects) : (modObj s f).bscan = s.bscan := rfl
@[simp] theorem modObj_extest (s : State) (f : Objects → Objects) : (modObj s f).extest = s.extest := rfl
@[simp] theorem modObj_eths (s : State) (f : Objects → Objects) : (modObj s f).eths = s.eths := rfl
@[simp] theorem modObj_pcies (s : State) (f : Objects → Objects) : (modObj s f).pcies = s.pcies := rfl

/-! ### modQw -/

@[simp] theorem modQw_pending (s : State) (f : Regen → Regen) : (modQw s f).pending = s.pending := rfl
@[simp] theorem modQw_out (s : State) (f : Regen → Regen) : (modQw s f).out = s.out := rfl
@[simp] theorem modQw_freeIx (s : State) (f : Regen → Regen) : (modQw s f).freeIx = s.freeIx := rfl
@[simp] theorem modQw_refCnt (s : State) (f : Regen → Regen) : (modQw s f).refCnt = s.refCnt := rfl
@[simp] theorem modQw_mem (s : State) (f : Regen → Regen) : (modQw s f).mem = s.mem := rfl
@[simp] theorem modQw_bad (s : State) (f : Regen → Regen) : (modQw s f).bad = s.bad := rfl
@[simp] theorem modQw_cores (s : State) (f : Regen → Regen) : (modQw s f).cores = s.cores := rfl
@[simp] theorem modQw_remap (s : State) (f : Regen → Regen) : (modQw s f).remap = s.remap := rfl
@[simp] theorem modQw_vatFail (s : State) (f : Regen → Regen) : (modQw s f).vatFail = s.vatFail := rfl
@[simp] theorem modQw_tests (s : State) (f : Regen → Regen) : (modQw s f).tests = s.tests := rfl
@[simp] theorem modQw_physCnt (s : State) (f : Regen → Regen) : (modQw s f).physCnt = s.physCnt := rfl
@[simp] theorem modQw_fltCnt (s : State) (f : Regen → Regen) : (modQw s f).fltCnt = s.fltCnt := rfl
@[simp] theorem modQw_dutyFb (s : State) (f : Regen → Regen) : (modQw s f).dutyFb = s.dutyFb := rfl
@[simp] theorem modQw_ladles (s : State) (f : Regen → Regen) : (modQw s f).ladles = s.ladles := rfl
@[simp] theorem modQw_hubLadles (s : State) (f : Regen → Regen) : (modQw s f).hubLadles = s.hubLadles := rfl
@[simp] theorem modQw_ladleOrder (s : State) (f : Regen → Regen) : (modQw s f).ladleOrder = s.ladleOrder := rfl
@[simp] theorem modQw_ladleLast (s : State) (f : Regen → Regen) : (modQw s f).ladleLast = s.ladleLast := rfl
@[simp] theorem modQw_vatSeq (s : State) (f : Regen → Regen) : (modQw s f).vatSeq = s.vatSeq := rfl
@[simp] theorem modQw_ports (s : State) (f : Regen → Regen) : (modQw s f).ports = s.ports := rfl
@[simp] theorem modQw_fab (s : State) (f : Regen → Regen) : (modQw s f).fab = s.fab := rfl
@[simp] theorem modQw_hoop (s : State) (f : Regen → Regen) : (modQw s f).hoop = s.hoop := rfl
@[simp] theorem modQw_turn (s : State) (f : Regen → Regen) : (modQw s f).turn = s.turn := rfl
@[simp] theorem modQw_obj (s : State) (f : Regen → Regen) : (modQw s f).obj = s.obj := rfl
@[simp] theorem modQw_qw (s : State) (f : Regen → Regen) : (modQw s f).qw = f s.qw := rfl
@[simp] theorem modQw_start (s : State) (f : Regen → Regen) : (modQw s f).start = s.start := rfl
@[simp] theorem modQw_clk (s : State) (f : Regen → Regen) : (modQw s f).clk = s.clk := rfl
@[simp] theorem modQw_pow (s : State) (f : Regen → Regen) : (modQw s f).pow = s.pow := rfl
@[simp] theorem modQw_memCtl (s : State) (f : Regen → Regen) : (modQw s f).memCtl = s.memCtl := rfl
@[simp] theorem modQw_triage (s : State) (f : Regen → Regen) : (modQw s f).triage = s.triage := rfl
@[simp] theorem modQw_meter (s : State) (f : Regen → Regen) : (modQw s f).meter = s.meter := rfl
@[simp] theorem modQw_bscan (s : State) (f : Regen → Regen) : (modQw s f).bscan = s.bscan := rfl
@[simp] theorem modQw_extest (s : State) (f : Regen → Regen) : (modQw s f).extest = s.extest := rfl
@[simp] theorem modQw_eths (s : State) (f : Regen → Regen) : (modQw s f).eths = s.eths := rfl
@[simp] theorem modQw_pcies (s : State) (f : Regen → Regen) : (modQw s f).pcies = s.pcies := rfl

/-! ### modStart -/

@[simp] theorem modStart_pending (s : State) (f : Start → Start) : (modStart s f).pending = s.pending := rfl
@[simp] theorem modStart_out (s : State) (f : Start → Start) : (modStart s f).out = s.out := rfl
@[simp] theorem modStart_freeIx (s : State) (f : Start → Start) : (modStart s f).freeIx = s.freeIx := rfl
@[simp] theorem modStart_refCnt (s : State) (f : Start → Start) : (modStart s f).refCnt = s.refCnt := rfl
@[simp] theorem modStart_mem (s : State) (f : Start → Start) : (modStart s f).mem = s.mem := rfl
@[simp] theorem modStart_bad (s : State) (f : Start → Start) : (modStart s f).bad = s.bad := rfl
@[simp] theorem modStart_cores (s : State) (f : Start → Start) : (modStart s f).cores = s.cores := rfl
@[simp] theorem modStart_remap (s : State) (f : Start → Start) : (modStart s f).remap = s.remap := rfl
@[simp] theorem modStart_vatFail (s : State) (f : Start → Start) : (modStart s f).vatFail = s.vatFail := rfl
@[simp] theorem modStart_tests (s : State) (f : Start → Start) : (modStart s f).tests = s.tests := rfl
@[simp] theorem modStart_physCnt (s : State) (f : Start → Start) : (modStart s f).physCnt = s.physCnt := rfl
@[simp] theorem modStart_fltCnt (s : State) (f : Start → Start) : (modStart s f).fltCnt = s.fltCnt := rfl
@[simp] theorem modStart_dutyFb (s : State) (f : Start → Start) : (modStart s f).dutyFb = s.dutyFb := rfl
@[simp] theorem modStart_ladles (s : State) (f : Start → Start) : (modStart s f).ladles = s.ladles := rfl
@[simp] theorem modStart_hubLadles (s : State) (f : Start → Start) : (modStart s f).hubLadles = s.hubLadles := rfl
@[simp] theorem modStart_ladleOrder (s : State) (f : Start → Start) : (modStart s f).ladleOrder = s.ladleOrder := rfl
@[simp] theorem modStart_ladleLast (s : State) (f : Start → Start) : (modStart s f).ladleLast = s.ladleLast := rfl
@[simp] theorem modStart_vatSeq (s : State) (f : Start → Start) : (modStart s f).vatSeq = s.vatSeq := rfl
@[simp] theorem modStart_ports (s : State) (f : Start → Start) : (modStart s f).ports = s.ports := rfl
@[simp] theorem modStart_fab (s : State) (f : Start → Start) : (modStart s f).fab = s.fab := rfl
@[simp] theorem modStart_hoop (s : State) (f : Start → Start) : (modStart s f).hoop = s.hoop := rfl
@[simp] theorem modStart_turn (s : State) (f : Start → Start) : (modStart s f).turn = s.turn := rfl
@[simp] theorem modStart_obj (s : State) (f : Start → Start) : (modStart s f).obj = s.obj := rfl
@[simp] theorem modStart_qw (s : State) (f : Start → Start) : (modStart s f).qw = s.qw := rfl
@[simp] theorem modStart_start (s : State) (f : Start → Start) : (modStart s f).start = f s.start := rfl
@[simp] theorem modStart_clk (s : State) (f : Start → Start) : (modStart s f).clk = s.clk := rfl
@[simp] theorem modStart_pow (s : State) (f : Start → Start) : (modStart s f).pow = s.pow := rfl
@[simp] theorem modStart_memCtl (s : State) (f : Start → Start) : (modStart s f).memCtl = s.memCtl := rfl
@[simp] theorem modStart_triage (s : State) (f : Start → Start) : (modStart s f).triage = s.triage := rfl
@[simp] theorem modStart_meter (s : State) (f : Start → Start) : (modStart s f).meter = s.meter := rfl
@[simp] theorem modStart_bscan (s : State) (f : Start → Start) : (modStart s f).bscan = s.bscan := rfl
@[simp] theorem modStart_extest (s : State) (f : Start → Start) : (modStart s f).extest = s.extest := rfl
@[simp] theorem modStart_eths (s : State) (f : Start → Start) : (modStart s f).eths = s.eths := rfl
@[simp] theorem modStart_pcies (s : State) (f : Start → Start) : (modStart s f).pcies = s.pcies := rfl

/-! ### modClk -/

@[simp] theorem modClk_pending (s : State) (f : Clocks → Clocks) : (modClk s f).pending = s.pending := rfl
@[simp] theorem modClk_out (s : State) (f : Clocks → Clocks) : (modClk s f).out = s.out := rfl
@[simp] theorem modClk_freeIx (s : State) (f : Clocks → Clocks) : (modClk s f).freeIx = s.freeIx := rfl
@[simp] theorem modClk_refCnt (s : State) (f : Clocks → Clocks) : (modClk s f).refCnt = s.refCnt := rfl
@[simp] theorem modClk_mem (s : State) (f : Clocks → Clocks) : (modClk s f).mem = s.mem := rfl
@[simp] theorem modClk_bad (s : State) (f : Clocks → Clocks) : (modClk s f).bad = s.bad := rfl
@[simp] theorem modClk_cores (s : State) (f : Clocks → Clocks) : (modClk s f).cores = s.cores := rfl
@[simp] theorem modClk_remap (s : State) (f : Clocks → Clocks) : (modClk s f).remap = s.remap := rfl
@[simp] theorem modClk_vatFail (s : State) (f : Clocks → Clocks) : (modClk s f).vatFail = s.vatFail := rfl
@[simp] theorem modClk_tests (s : State) (f : Clocks → Clocks) : (modClk s f).tests = s.tests := rfl
@[simp] theorem modClk_physCnt (s : State) (f : Clocks → Clocks) : (modClk s f).physCnt = s.physCnt := rfl
@[simp] theorem modClk_fltCnt (s : State) (f : Clocks → Clocks) : (modClk s f).fltCnt = s.fltCnt := rfl
@[simp] theorem modClk_dutyFb (s : State) (f : Clocks → Clocks) : (modClk s f).dutyFb = s.dutyFb := rfl
@[simp] theorem modClk_ladles (s : State) (f : Clocks → Clocks) : (modClk s f).ladles = s.ladles := rfl
@[simp] theorem modClk_hubLadles (s : State) (f : Clocks → Clocks) : (modClk s f).hubLadles = s.hubLadles := rfl
@[simp] theorem modClk_ladleOrder (s : State) (f : Clocks → Clocks) : (modClk s f).ladleOrder = s.ladleOrder := rfl
@[simp] theorem modClk_ladleLast (s : State) (f : Clocks → Clocks) : (modClk s f).ladleLast = s.ladleLast := rfl
@[simp] theorem modClk_vatSeq (s : State) (f : Clocks → Clocks) : (modClk s f).vatSeq = s.vatSeq := rfl
@[simp] theorem modClk_ports (s : State) (f : Clocks → Clocks) : (modClk s f).ports = s.ports := rfl
@[simp] theorem modClk_fab (s : State) (f : Clocks → Clocks) : (modClk s f).fab = s.fab := rfl
@[simp] theorem modClk_hoop (s : State) (f : Clocks → Clocks) : (modClk s f).hoop = s.hoop := rfl
@[simp] theorem modClk_turn (s : State) (f : Clocks → Clocks) : (modClk s f).turn = s.turn := rfl
@[simp] theorem modClk_obj (s : State) (f : Clocks → Clocks) : (modClk s f).obj = s.obj := rfl
@[simp] theorem modClk_qw (s : State) (f : Clocks → Clocks) : (modClk s f).qw = s.qw := rfl
@[simp] theorem modClk_start (s : State) (f : Clocks → Clocks) : (modClk s f).start = s.start := rfl
@[simp] theorem modClk_clk (s : State) (f : Clocks → Clocks) : (modClk s f).clk = f s.clk := rfl
@[simp] theorem modClk_pow (s : State) (f : Clocks → Clocks) : (modClk s f).pow = s.pow := rfl
@[simp] theorem modClk_memCtl (s : State) (f : Clocks → Clocks) : (modClk s f).memCtl = s.memCtl := rfl
@[simp] theorem modClk_triage (s : State) (f : Clocks → Clocks) : (modClk s f).triage = s.triage := rfl
@[simp] theorem modClk_meter (s : State) (f : Clocks → Clocks) : (modClk s f).meter = s.meter := rfl
@[simp] theorem modClk_bscan (s : State) (f : Clocks → Clocks) : (modClk s f).bscan = s.bscan := rfl
@[simp] theorem modClk_extest (s : State) (f : Clocks → Clocks) : (modClk s f).extest = s.extest := rfl
@[simp] theorem modClk_eths (s : State) (f : Clocks → Clocks) : (modClk s f).eths = s.eths := rfl
@[simp] theorem modClk_pcies (s : State) (f : Clocks → Clocks) : (modClk s f).pcies = s.pcies := rfl

/-! ### modPow -/

@[simp] theorem modPow_pending (s : State) (f : Power → Power) : (modPow s f).pending = s.pending := rfl
@[simp] theorem modPow_out (s : State) (f : Power → Power) : (modPow s f).out = s.out := rfl
@[simp] theorem modPow_freeIx (s : State) (f : Power → Power) : (modPow s f).freeIx = s.freeIx := rfl
@[simp] theorem modPow_refCnt (s : State) (f : Power → Power) : (modPow s f).refCnt = s.refCnt := rfl
@[simp] theorem modPow_mem (s : State) (f : Power → Power) : (modPow s f).mem = s.mem := rfl
@[simp] theorem modPow_bad (s : State) (f : Power → Power) : (modPow s f).bad = s.bad := rfl
@[simp] theorem modPow_cores (s : State) (f : Power → Power) : (modPow s f).cores = s.cores := rfl
@[simp] theorem modPow_remap (s : State) (f : Power → Power) : (modPow s f).remap = s.remap := rfl
@[simp] theorem modPow_vatFail (s : State) (f : Power → Power) : (modPow s f).vatFail = s.vatFail := rfl
@[simp] theorem modPow_tests (s : State) (f : Power → Power) : (modPow s f).tests = s.tests := rfl
@[simp] theorem modPow_physCnt (s : State) (f : Power → Power) : (modPow s f).physCnt = s.physCnt := rfl
@[simp] theorem modPow_fltCnt (s : State) (f : Power → Power) : (modPow s f).fltCnt = s.fltCnt := rfl
@[simp] theorem modPow_dutyFb (s : State) (f : Power → Power) : (modPow s f).dutyFb = s.dutyFb := rfl
@[simp] theorem modPow_ladles (s : State) (f : Power → Power) : (modPow s f).ladles = s.ladles := rfl
@[simp] theorem modPow_hubLadles (s : State) (f : Power → Power) : (modPow s f).hubLadles = s.hubLadles := rfl
@[simp] theorem modPow_ladleOrder (s : State) (f : Power → Power) : (modPow s f).ladleOrder = s.ladleOrder := rfl
@[simp] theorem modPow_ladleLast (s : State) (f : Power → Power) : (modPow s f).ladleLast = s.ladleLast := rfl
@[simp] theorem modPow_vatSeq (s : State) (f : Power → Power) : (modPow s f).vatSeq = s.vatSeq := rfl
@[simp] theorem modPow_ports (s : State) (f : Power → Power) : (modPow s f).ports = s.ports := rfl
@[simp] theorem modPow_fab (s : State) (f : Power → Power) : (modPow s f).fab = s.fab := rfl
@[simp] theorem modPow_hoop (s : State) (f : Power → Power) : (modPow s f).hoop = s.hoop := rfl
@[simp] theorem modPow_turn (s : State) (f : Power → Power) : (modPow s f).turn = s.turn := rfl
@[simp] theorem modPow_obj (s : State) (f : Power → Power) : (modPow s f).obj = s.obj := rfl
@[simp] theorem modPow_qw (s : State) (f : Power → Power) : (modPow s f).qw = s.qw := rfl
@[simp] theorem modPow_start (s : State) (f : Power → Power) : (modPow s f).start = s.start := rfl
@[simp] theorem modPow_clk (s : State) (f : Power → Power) : (modPow s f).clk = s.clk := rfl
@[simp] theorem modPow_pow (s : State) (f : Power → Power) : (modPow s f).pow = f s.pow := rfl
@[simp] theorem modPow_memCtl (s : State) (f : Power → Power) : (modPow s f).memCtl = s.memCtl := rfl
@[simp] theorem modPow_triage (s : State) (f : Power → Power) : (modPow s f).triage = s.triage := rfl
@[simp] theorem modPow_meter (s : State) (f : Power → Power) : (modPow s f).meter = s.meter := rfl
@[simp] theorem modPow_bscan (s : State) (f : Power → Power) : (modPow s f).bscan = s.bscan := rfl
@[simp] theorem modPow_extest (s : State) (f : Power → Power) : (modPow s f).extest = s.extest := rfl
@[simp] theorem modPow_eths (s : State) (f : Power → Power) : (modPow s f).eths = s.eths := rfl
@[simp] theorem modPow_pcies (s : State) (f : Power → Power) : (modPow s f).pcies = s.pcies := rfl

/-! ### modTriage -/

@[simp] theorem modTriage_pending (s : State) (f : Triage → Triage) : (modTriage s f).pending = s.pending := rfl
@[simp] theorem modTriage_out (s : State) (f : Triage → Triage) : (modTriage s f).out = s.out := rfl
@[simp] theorem modTriage_freeIx (s : State) (f : Triage → Triage) : (modTriage s f).freeIx = s.freeIx := rfl
@[simp] theorem modTriage_refCnt (s : State) (f : Triage → Triage) : (modTriage s f).refCnt = s.refCnt := rfl
@[simp] theorem modTriage_mem (s : State) (f : Triage → Triage) : (modTriage s f).mem = s.mem := rfl
@[simp] theorem modTriage_bad (s : State) (f : Triage → Triage) : (modTriage s f).bad = s.bad := rfl
@[simp] theorem modTriage_cores (s : State) (f : Triage → Triage) : (modTriage s f).cores = s.cores := rfl
@[simp] theorem modTriage_remap (s : State) (f : Triage → Triage) : (modTriage s f).remap = s.remap := rfl
@[simp] theorem modTriage_vatFail (s : State) (f : Triage → Triage) : (modTriage s f).vatFail = s.vatFail := rfl
@[simp] theorem modTriage_tests (s : State) (f : Triage → Triage) : (modTriage s f).tests = s.tests := rfl
@[simp] theorem modTriage_physCnt (s : State) (f : Triage → Triage) : (modTriage s f).physCnt = s.physCnt := rfl
@[simp] theorem modTriage_fltCnt (s : State) (f : Triage → Triage) : (modTriage s f).fltCnt = s.fltCnt := rfl
@[simp] theorem modTriage_dutyFb (s : State) (f : Triage → Triage) : (modTriage s f).dutyFb = s.dutyFb := rfl
@[simp] theorem modTriage_ladles (s : State) (f : Triage → Triage) : (modTriage s f).ladles = s.ladles := rfl
@[simp] theorem modTriage_hubLadles (s : State) (f : Triage → Triage) : (modTriage s f).hubLadles = s.hubLadles := rfl
@[simp] theorem modTriage_ladleOrder (s : State) (f : Triage → Triage) : (modTriage s f).ladleOrder = s.ladleOrder := rfl
@[simp] theorem modTriage_ladleLast (s : State) (f : Triage → Triage) : (modTriage s f).ladleLast = s.ladleLast := rfl
@[simp] theorem modTriage_vatSeq (s : State) (f : Triage → Triage) : (modTriage s f).vatSeq = s.vatSeq := rfl
@[simp] theorem modTriage_ports (s : State) (f : Triage → Triage) : (modTriage s f).ports = s.ports := rfl
@[simp] theorem modTriage_fab (s : State) (f : Triage → Triage) : (modTriage s f).fab = s.fab := rfl
@[simp] theorem modTriage_hoop (s : State) (f : Triage → Triage) : (modTriage s f).hoop = s.hoop := rfl
@[simp] theorem modTriage_turn (s : State) (f : Triage → Triage) : (modTriage s f).turn = s.turn := rfl
@[simp] theorem modTriage_obj (s : State) (f : Triage → Triage) : (modTriage s f).obj = s.obj := rfl
@[simp] theorem modTriage_qw (s : State) (f : Triage → Triage) : (modTriage s f).qw = s.qw := rfl
@[simp] theorem modTriage_start (s : State) (f : Triage → Triage) : (modTriage s f).start = s.start := rfl
@[simp] theorem modTriage_clk (s : State) (f : Triage → Triage) : (modTriage s f).clk = s.clk := rfl
@[simp] theorem modTriage_pow (s : State) (f : Triage → Triage) : (modTriage s f).pow = s.pow := rfl
@[simp] theorem modTriage_memCtl (s : State) (f : Triage → Triage) : (modTriage s f).memCtl = s.memCtl := rfl
@[simp] theorem modTriage_triage (s : State) (f : Triage → Triage) : (modTriage s f).triage = f s.triage := rfl
@[simp] theorem modTriage_meter (s : State) (f : Triage → Triage) : (modTriage s f).meter = s.meter := rfl
@[simp] theorem modTriage_bscan (s : State) (f : Triage → Triage) : (modTriage s f).bscan = s.bscan := rfl
@[simp] theorem modTriage_extest (s : State) (f : Triage → Triage) : (modTriage s f).extest = s.extest := rfl
@[simp] theorem modTriage_eths (s : State) (f : Triage → Triage) : (modTriage s f).eths = s.eths := rfl
@[simp] theorem modTriage_pcies (s : State) (f : Triage → Triage) : (modTriage s f).pcies = s.pcies := rfl

/-! ### modMeter -/

@[simp] theorem modMeter_pending (s : State) (f : Meter → Meter) : (modMeter s f).pending = s.pending := rfl
@[simp] theorem modMeter_out (s : State) (f : Meter → Meter) : (modMeter s f).out = s.out := rfl
@[simp] theorem modMeter_freeIx (s : State) (f : Meter → Meter) : (modMeter s f).freeIx = s.freeIx := rfl
@[simp] theorem modMeter_refCnt (s : State) (f : Meter → Meter) : (modMeter s f).refCnt = s.refCnt := rfl
@[simp] theorem modMeter_mem (s : State) (f : Meter → Meter) : (modMeter s f).mem = s.mem := rfl
@[simp] theorem modMeter_bad (s : State) (f : Meter → Meter) : (modMeter s f).bad = s.bad := rfl
@[simp] theorem modMeter_cores (s : State) (f : Meter → Meter) : (modMeter s f).cores = s.cores := rfl
@[simp] theorem modMeter_remap (s : State) (f : Meter → Meter) : (modMeter s f).remap = s.remap := rfl
@[simp] theorem modMeter_vatFail (s : State) (f : Meter → Meter) : (modMeter s f).vatFail = s.vatFail := rfl
@[simp] theorem modMeter_tests (s : State) (f : Meter → Meter) : (modMeter s f).tests = s.tests := rfl
@[simp] theorem modMeter_physCnt (s : State) (f : Meter → Meter) : (modMeter s f).physCnt = s.physCnt := rfl
@[simp] theorem modMeter_fltCnt (s : State) (f : Meter → Meter) : (modMeter s f).fltCnt = s.fltCnt := rfl
@[simp] theorem modMeter_dutyFb (s : State) (f : Meter → Meter) : (modMeter s f).dutyFb = s.dutyFb := rfl
@[simp] theorem modMeter_ladles (s : State) (f : Meter → Meter) : (modMeter s f).ladles = s.ladles := rfl
@[simp] theorem modMeter_hubLadles (s : State) (f : Meter → Meter) : (modMeter s f).hubLadles = s.hubLadles := rfl
@[simp] theorem modMeter_ladleOrder (s : State) (f : Meter → Meter) : (modMeter s f).ladleOrder = s.ladleOrder := rfl
@[simp] theorem modMeter_ladleLast (s : State) (f : Meter → Meter) : (modMeter s f).ladleLast = s.ladleLast := rfl
@[simp] theorem modMeter_vatSeq (s : State) (f : Meter → Meter) : (modMeter s f).vatSeq = s.vatSeq := rfl
@[simp] theorem modMeter_ports (s : State) (f : Meter → Meter) : (modMeter s f).ports = s.ports := rfl
@[simp] theorem modMeter_fab (s : State) (f : Meter → Meter) : (modMeter s f).fab = s.fab := rfl
@[simp] theorem modMeter_hoop (s : State) (f : Meter → Meter) : (modMeter s f).hoop = s.hoop := rfl
@[simp] theorem modMeter_turn (s : State) (f : Meter → Meter) : (modMeter s f).turn = s.turn := rfl
@[simp] theorem modMeter_obj (s : State) (f : Meter → Meter) : (modMeter s f).obj = s.obj := rfl
@[simp] theorem modMeter_qw (s : State) (f : Meter → Meter) : (modMeter s f).qw = s.qw := rfl
@[simp] theorem modMeter_start (s : State) (f : Meter → Meter) : (modMeter s f).start = s.start := rfl
@[simp] theorem modMeter_clk (s : State) (f : Meter → Meter) : (modMeter s f).clk = s.clk := rfl
@[simp] theorem modMeter_pow (s : State) (f : Meter → Meter) : (modMeter s f).pow = s.pow := rfl
@[simp] theorem modMeter_memCtl (s : State) (f : Meter → Meter) : (modMeter s f).memCtl = s.memCtl := rfl
@[simp] theorem modMeter_triage (s : State) (f : Meter → Meter) : (modMeter s f).triage = s.triage := rfl
@[simp] theorem modMeter_meter (s : State) (f : Meter → Meter) : (modMeter s f).meter = f s.meter := rfl
@[simp] theorem modMeter_bscan (s : State) (f : Meter → Meter) : (modMeter s f).bscan = s.bscan := rfl
@[simp] theorem modMeter_extest (s : State) (f : Meter → Meter) : (modMeter s f).extest = s.extest := rfl
@[simp] theorem modMeter_eths (s : State) (f : Meter → Meter) : (modMeter s f).eths = s.eths := rfl
@[simp] theorem modMeter_pcies (s : State) (f : Meter → Meter) : (modMeter s f).pcies = s.pcies := rfl

/-! ### modEth -/

@[simp] theorem modEth_pending (s : State) (p : Nat) (f : Eth → Eth) : (modEth s p f).pending = s.pending := rfl
@[simp] theorem modEth_out (s : State) (p : Nat) (f : Eth → Eth) : (modEth s p f).out = s.out := rfl
@[simp] theorem modEth_freeIx (s : State) (p : Nat) (f : Eth → Eth) : (modEth s p f).freeIx = s.freeIx := rfl
@[simp] theorem modEth_refCnt (s : State) (p : Nat) (f : Eth → Eth) : (modEth s p f).refCnt = s.refCnt := rfl
@[simp] theorem modEth_mem (s : State) (p : Nat) (f : Eth → Eth) : (modEth s p f).mem = s.mem := rfl
@[simp] theorem modEth_bad (s : State) (p : Nat) (f : Eth → Eth) : (modEth s p f).bad = s.bad := rfl
@[simp] theorem modEth_cores (s : State) (p : Nat) (f : Eth → Eth) : (modEth s p f).cores = s.cores := rfl
@[simp] theorem modEth_remap (s : State) (p : Nat) (f : Eth → Eth) : (modEth s p f).remap = s.remap := rfl
@[simp] theorem modEth_vatFail (s : State) (p : Nat) (f : Eth → Eth) : (modEth s p f).vatFail = s.vatFail := rfl
@[simp] theorem modEth_tests (s : State) (p : Nat) (f : Eth → Eth) : (modEth s p f).tests = s.tests := rfl
@[simp] theorem modEth_physCnt (s : State) (p : Nat) (f : Eth → Eth) : (modEth s p f).physCnt = s.physCnt := rfl
@[simp] theorem modEth_fltCnt (s : State) (p : Nat) (f : Eth → Eth) : (modEth s p f).fltCnt = s.fltCnt := rfl
@[simp] theorem modEth_dutyFb (s : State) (p : Nat) (f : Eth → Eth) : (modEth s p f).dutyFb = s.dutyFb := rfl
@[simp] theorem modEth_ladles (s : State) (p : Nat) (f : Eth → Eth) : (modEth s p f).ladles = s.ladles := rfl
@[simp] theorem modEth_hubLadles (s : State) (p : Nat) (f : Eth → Eth) : (modEth s p f).hubLadles = s.hubLadles := rfl
@[simp] theorem modEth_ladleOrder (s : State) (p : Nat) (f : Eth → Eth) : (modEth s p f).ladleOrder = s.ladleOrder := rfl
@[simp] theorem modEth_ladleLast (s : State) (p : Nat) (f : Eth → Eth) : (modEth s p f).ladleLast = s.ladleLast := rfl
@[simp] theorem modEth_vatSeq (s : State) (p : Nat) (f : Eth → Eth) : (modEth s p f).vatSeq = s.vatSeq := rfl
@[simp] theorem modEth_ports (s : State) (p : Nat) (f : Eth → Eth) : (modEth s p f).ports = s.ports := rfl
@[simp] theorem modEth_fab (s : State) (p : Nat) (f : Eth → Eth) : (modEth s p f).fab = s.fab := rfl
@[simp] theorem modEth_hoop (s : State) (p : Nat) (f : Eth → Eth) : (modEth s p f).hoop = s.hoop := rfl
@[simp] theorem modEth_turn (s : State) (p : Nat) (f : Eth → Eth) : (modEth s p f).turn = s.turn := rfl
@[simp] theorem modEth_obj (s : State) (p : Nat) (f : Eth → Eth) : (modEth s p f).obj = s.obj := rfl
@[simp] theorem modEth_qw (s : State) (p : Nat) (f : Eth → Eth) : (modEth s p f).qw = s.qw := rfl
@[simp] theorem modEth_start (s : State) (p : Nat) (f : Eth → Eth) : (modEth s p f).start = s.start := rfl
@[simp] theorem modEth_clk (s : State) (p : Nat) (f : Eth → Eth) : (modEth s p f).clk = s.clk := rfl
@[simp] theorem modEth_pow (s : State) (p : Nat) (f : Eth → Eth) : (modEth s p f).pow = s.pow := rfl
@[simp] theorem modEth_memCtl (s : State) (p : Nat) (f : Eth → Eth) : (modEth s p f).memCtl = s.memCtl := rfl
@[simp] theorem modEth_triage (s : State) (p : Nat) (f : Eth → Eth) : (modEth s p f).triage = s.triage := rfl
@[simp] theorem modEth_meter (s : State) (p : Nat) (f : Eth → Eth) : (modEth s p f).meter = s.meter := rfl
@[simp] theorem modEth_bscan (s : State) (p : Nat) (f : Eth → Eth) : (modEth s p f).bscan = s.bscan := rfl
@[simp] theorem modEth_extest (s : State) (p : Nat) (f : Eth → Eth) : (modEth s p f).extest = s.extest := rfl
@[simp] theorem modEth_pcies (s : State) (p : Nat) (f : Eth → Eth) : (modEth s p f).pcies = s.pcies := rfl

/-! ### modPcie -/

@[simp] theorem modPcie_pending (s : State) (l : Nat) (f : Pcie → Pcie) : (modPcie s l f).pending = s.pending := rfl
@[simp] theorem modPcie_out (s : State) (l : Nat) (f : Pcie → Pcie) : (modPcie s l f).out = s.out := rfl
@[simp] theorem modPcie_freeIx (s : State) (l : Nat) (f : Pcie → Pcie) : (modPcie s l f).freeIx = s.freeIx := rfl
@[simp] theorem modPcie_refCnt (s : State) (l : Nat) (f : Pcie → Pcie) : (modPcie s l f).refCnt = s.refCnt := rfl
@[simp] theorem modPcie_mem (s : State) (l : Nat) (f : Pcie → Pcie) : (modPcie s l f).mem = s.mem := rfl
@[simp] theorem modPcie_bad (s : State) (l : Nat) (f : Pcie → Pcie) : (modPcie s l f).bad = s.bad := rfl
@[simp] theorem modPcie_cores (s : State) (l : Nat) (f : Pcie → Pcie) : (modPcie s l f).cores = s.cores := rfl
@[simp] theorem modPcie_remap (s : State) (l : Nat) (f : Pcie → Pcie) : (modPcie s l f).remap = s.remap := rfl
@[simp] theorem modPcie_vatFail (s : State) (l : Nat) (f : Pcie → Pcie) : (modPcie s l f).vatFail = s.vatFail := rfl
@[simp] theorem modPcie_tests (s : State) (l : Nat) (f : Pcie → Pcie) : (modPcie s l f).tests = s.tests := rfl
@[simp] theorem modPcie_physCnt (s : State) (l : Nat) (f : Pcie → Pcie) : (modPcie s l f).physCnt = s.physCnt := rfl
@[simp] theorem modPcie_fltCnt (s : State) (l : Nat) (f : Pcie → Pcie) : (modPcie s l f).fltCnt = s.fltCnt := rfl
@[simp] theorem modPcie_dutyFb (s : State) (l : Nat) (f : Pcie → Pcie) : (modPcie s l f).dutyFb = s.dutyFb := rfl
@[simp] theorem modPcie_ladles (s : State) (l : Nat) (f : Pcie → Pcie) : (modPcie s l f).ladles = s.ladles := rfl
@[simp] theorem modPcie_hubLadles (s : State) (l : Nat) (f : Pcie → Pcie) : (modPcie s l f).hubLadles = s.hubLadles := rfl
@[simp] theorem modPcie_ladleOrder (s : State) (l : Nat) (f : Pcie → Pcie) : (modPcie s l f).ladleOrder = s.ladleOrder := rfl
@[simp] theorem modPcie_ladleLast (s : State) (l : Nat) (f : Pcie → Pcie) : (modPcie s l f).ladleLast = s.ladleLast := rfl
@[simp] theorem modPcie_vatSeq (s : State) (l : Nat) (f : Pcie → Pcie) : (modPcie s l f).vatSeq = s.vatSeq := rfl
@[simp] theorem modPcie_ports (s : State) (l : Nat) (f : Pcie → Pcie) : (modPcie s l f).ports = s.ports := rfl
@[simp] theorem modPcie_fab (s : State) (l : Nat) (f : Pcie → Pcie) : (modPcie s l f).fab = s.fab := rfl
@[simp] theorem modPcie_hoop (s : State) (l : Nat) (f : Pcie → Pcie) : (modPcie s l f).hoop = s.hoop := rfl
@[simp] theorem modPcie_turn (s : State) (l : Nat) (f : Pcie → Pcie) : (modPcie s l f).turn = s.turn := rfl
@[simp] theorem modPcie_obj (s : State) (l : Nat) (f : Pcie → Pcie) : (modPcie s l f).obj = s.obj := rfl
@[simp] theorem modPcie_qw (s : State) (l : Nat) (f : Pcie → Pcie) : (modPcie s l f).qw = s.qw := rfl
@[simp] theorem modPcie_start (s : State) (l : Nat) (f : Pcie → Pcie) : (modPcie s l f).start = s.start := rfl
@[simp] theorem modPcie_clk (s : State) (l : Nat) (f : Pcie → Pcie) : (modPcie s l f).clk = s.clk := rfl
@[simp] theorem modPcie_pow (s : State) (l : Nat) (f : Pcie → Pcie) : (modPcie s l f).pow = s.pow := rfl
@[simp] theorem modPcie_memCtl (s : State) (l : Nat) (f : Pcie → Pcie) : (modPcie s l f).memCtl = s.memCtl := rfl
@[simp] theorem modPcie_triage (s : State) (l : Nat) (f : Pcie → Pcie) : (modPcie s l f).triage = s.triage := rfl
@[simp] theorem modPcie_meter (s : State) (l : Nat) (f : Pcie → Pcie) : (modPcie s l f).meter = s.meter := rfl
@[simp] theorem modPcie_bscan (s : State) (l : Nat) (f : Pcie → Pcie) : (modPcie s l f).bscan = s.bscan := rfl
@[simp] theorem modPcie_extest (s : State) (l : Nat) (f : Pcie → Pcie) : (modPcie s l f).extest = s.extest := rfl
@[simp] theorem modPcie_eths (s : State) (l : Nat) (f : Pcie → Pcie) : (modPcie s l f).eths = s.eths := rfl

end Sys2Proof.Machine
end

