-- ==== Sys2Proof/Laws/Cores.lean ====
section
/-! SUPPORT. Laws of units, cores, ports, registers and predicates: what a read after an update gives, and what each
shared operation of a thread's group can do (R147, R156, R183, R188, R190, R191). -/

namespace Sys2Proof.Machine

/-! ### Units -/

theorem onUnit_lt {n i : Nat} (h : i < n) (r : Res) : onUnit n i r = r := by simp [onUnit, h]
theorem onCore_lt {c : Nat} (h : c < 256) (r : Res) : onCore c r = r := onUnit_lt h r

/-- A command on a unit answers a next state only when the unit exists. -/
theorem onUnit_next {n i : Nat} {r : Res} {t : State} (h : onUnit n i r = .next t) : i < n ∧ r = .next t := by
  unfold onUnit at h
  split at h
  · exact ⟨‹_›, h⟩
  · cases h

theorem onCore_next {c : Nat} {r : Res} {t : State} (h : onCore c r = .next t) : c < 256 ∧ r = .next t := onUnit_next h

/-! ### Cores and ports -/

@[simp] theorem coreOf_setCore_same (s : State) (c : Nat) (k : Core) : coreOf (setCore s c k) c = k := mget_mput_same ..
theorem coreOf_setCore_ne (s : State) {c d : Nat} (h : d ≠ c) (k : Core) : coreOf (setCore s c k) d = coreOf s d :=
  mget_mput_ne _ _ h _
@[simp] theorem coreOf_modCore_same (s : State) (c : Nat) (f : Core → Core) : coreOf (modCore s c f) c = f (coreOf s c) :=
  mget_mput_same ..
theorem coreOf_modCore_ne (s : State) {c d : Nat} (h : d ≠ c) (f : Core → Core) : coreOf (modCore s c f) d = coreOf s d :=
  mget_mput_ne _ _ h _
theorem modCore_rest (s : State) (c : Nat) (f : Core → Core) : { modCore s c f with cores := s.cores } = s := rfl

@[simp] theorem portOf_setPort_same (s : State) (p : Nat) (q : Port) : portOf (setPort s p q) p = q := mget_mput_same ..
theorem portOf_setPort_ne (s : State) {p d : Nat} (h : d ≠ p) (q : Port) : portOf (setPort s p q) d = portOf s d :=
  mget_mput_ne _ _ h _

/-! ### Registers and predicates of a lane -/

@[simp] theorem reg_zero (g : Group) (l : Nat) : reg g l 255 = 0 := by simp [reg]
theorem reg_lt (g : Group) (l r : Nat) : reg g l r < 2 ^ 32 := by
  unfold reg
  split
  · decide
  · exact (mget g.regs 0 (256 * l + r)).isLt

@[simp] theorem setReg_paths (g : Group) (l r v : Nat) : (setReg g l r v).paths = g.paths := by unfold setReg; split <;> rfl
@[simp] theorem setReg_preds (g : Group) (l r v : Nat) : (setReg g l r v).preds = g.preds := by unfold setReg; split <;> rfl
@[simp] theorem setPredByte_regs (g : Group) (l v : Nat) : (setPredByte g l v).regs = g.regs := rfl
@[simp] theorem setPredByte_paths (g : Group) (l v : Nat) : (setPredByte g l v).paths = g.paths := rfl

/-- A write to zero is discarded. -/
@[simp] theorem setReg_zero (g : Group) (l v : Nat) : setReg g l 255 v = g := by simp [setReg]

/-- A register that has been written reads as the value's low word. -/
theorem reg_setReg_same (g : Group) (l v : Nat) {r : Nat} (h : r ≠ 255) : reg (setReg g l r v) l r = v % 2 ^ 32 := by
  simp [reg, setReg, h]

/-- A write of a register leaves every other register of every lane alone. -/
theorem reg_setReg_ne (g : Group) (v : Nat) {l r m q : Nat} (hr : r < 256) (hq : q < 256) (h : ¬ (m = l ∧ q = r)) :
    reg (setReg g l r v) m q = reg g m q := by
  unfold reg setReg
  by_cases hr' : r = 255
  · simp [hr']
  · by_cases hq' : q = 255
    · simp [hq']
    · have hk : 256 * m + q ≠ 256 * l + r := by omega
      simp [hr', hq', mget_mset_ne _ _ hk]

theorem predByte_setPredByte_same (g : Group) (l v : Nat) : predByte (setPredByte g l v) l = v % 2 ^ 8 := by
  simp [predByte, setPredByte]

theorem predByte_setPredByte_ne (g : Group) (v : Nat) {l m : Nat} (h : m ≠ l) :
    predByte (setPredByte g l v) m = predByte g m := by
  simp [predByte, setPredByte, mget_mset_ne _ _ h]

theorem pred_setReg (g : Group) (l r v m n : Nat) : pred (setReg g l r v) m n = pred g m n := by
  simp [pred, predByte]
theorem reg_setPredByte (g : Group) (l v m r : Nat) : reg (setPredByte g l v) m r = reg g m r := rfl

/-! ### A register written in each of some lanes -/

/-- One register written in each lane of a list: each such lane holds its own value, and nothing else changes. -/
theorem reg_foldl_setReg (ls : List Nat) (g : Group) {r : Nat} (v : Nat → Nat) (hr : r < 256) :
    (∀ l ∈ ls, r ≠ 255 → reg (ls.foldl (fun g l => setReg g l r (v l)) g) l r = v l % 2 ^ 32) ∧
    (∀ m q, q < 256 → ¬ (m ∈ ls ∧ q = r) → reg (ls.foldl (fun g l => setReg g l r (v l)) g) m q = reg g m q) ∧
    (∀ m n, pred (ls.foldl (fun g l => setReg g l r (v l)) g) m n = pred g m n) ∧
    (ls.foldl (fun g l => setReg g l r (v l)) g).paths = g.paths := by
  induction ls generalizing g with
  | nil => exact ⟨fun _ h => by simp at h, fun _ _ _ _ => rfl, fun _ _ => rfl, rfl⟩
  | cons a ls ih =>
    obtain ⟨h1, h2, h3, h4⟩ := ih (setReg g a r (v a))
    simp only [List.foldl_cons]
    refine ⟨fun l hl h255 => ?_, fun m q hq h => ?_, fun m n => ?_, ?_⟩
    · by_cases hin : l ∈ ls
      · exact h1 l hin h255
      · have hla : l = a := (List.mem_cons.1 hl).resolve_right hin
        subst hla
        rw [h2 l r hr fun h => hin h.1]
        exact reg_setReg_same g l (v l) h255
    · rw [h2 m q hq fun h' => h ⟨List.mem_cons_of_mem a h'.1, h'.2⟩]
      exact reg_setReg_ne g (v a) hr hq fun h' => h ⟨h'.1 ▸ List.mem_cons_self, h'.2⟩
    · rw [h3, pred_setReg]
    · rw [h4, setReg_paths]

/-! ### The group of an issue put back -/

theorem coreOf_putIssue (s : State) (x : Issue) (grp : Group) :
    coreOf (putIssue s x grp) x.c =
      countIssue { coreOf s x.c with groups := mput (coreOf s x.c).groups x.g grp } x.g := coreOf_modCore_same ..
theorem coreOf_putIssue_ne (s : State) (x : Issue) (grp : Group) {d : Nat} (h : d ≠ x.c) :
    coreOf (putIssue s x grp) d = coreOf s d := coreOf_modCore_ne s h _
theorem putIssue_rest (s : State) (x : Issue) (grp : Group) : { putIssue s x grp with cores := s.cores } = s := rfl

/-- The group in the slot of the issue is the one put there, and every other group of the core stands. -/
theorem groups_putIssue (s : State) (x : Issue) (grp : Group) :
    mget? (coreOf (putIssue s x grp) x.c).groups x.g = some grp ∧
    ∀ h, h ≠ x.g → mget? (coreOf (putIssue s x grp) x.c).groups h = mget? (coreOf s x.c).groups h := by
  rw [coreOf_putIssue]
  exact ⟨mget?_mput_same .., fun h hne => mget?_mput_ne _ hne _⟩

/-- An instruction that is done has its running path at the next word, with the group otherwise as given. -/
theorem atPc_paths (grp : Group) (p : Path) (ps : List Path) (pc : Nat) (h : grp.paths = p :: ps) :
    (atPc grp pc).paths = { p with pc := pc } :: ps := by
  simp [atPc, h]
@[simp] theorem atPc_regs (grp : Group) (pc : Nat) : (atPc grp pc).regs = grp.regs := by unfold atPc; split <;> rfl
@[simp] theorem atPc_preds (grp : Group) (pc : Nat) : (atPc grp pc).preds = grp.preds := by unfold atPc; split <;> rfl
@[simp] theorem reg_atPc (grp : Group) (pc l r : Nat) : reg (atPc grp pc) l r = reg grp l r := by simp [reg]
@[simp] theorem pred_atPc (grp : Group) (pc l n : Nat) : pred (atPc grp pc) l n = pred grp l n := by simp [pred, predByte]

/-! ### Issue -/

/-- What an issue names: the core and slot asked for, a path at the head, and the group's other fields as the core
holds them. -/
theorem issueOf_some {s : State} {c g : Nat} {i : Insn} {x : Issue} (h : issueOf s c g i = some x) :
    x.c = c ∧ x.g = g ∧ x.k = coreOf s c ∧
    ∃ grp p ps, mget? (coreOf s c).groups g = some grp ∧ x.grp = { grp with paths := p :: ps } ∧ x.pc = p.pc ∧
      x.act = activeLanes grp p i := by
  unfold issueOf at h
  simp only [] at h
  split at h
  · cases h
  · next grp hg =>
    split at h
    · next blk p ps hb hp =>
      split at h
      · cases h
      · cases h; exact ⟨rfl, rfl, rfl, grp, p, ps, hg, rfl, rfl, rfl⟩
    · cases h

/-- Everything an issue can do: a unit that does not exist; nothing; a wake request to the channel of the word; the loss of
the context by a fetch or a decode fault, or by poison in an operand; a wait for a tracker entry; or the effect of the
instruction on the group that the core picks and that can issue. -/
theorem issue_cases (s : State) (c g : Nat) (f : Form) (i : Insn) (run : Issue → Res) :
    (¬ (c < 256 ∧ g < 48) ∧ issue s c g f i run = .fault .noSuchUnit) ∨
    issue s c g f i run = .next s ∨
    (∃ x, issueOf s c g i = some x ∧ asleep s x.pc 8 = true ∧ issue s c g f i run = .next (askWake s x.pc 8)) ∨
    (∃ x st, issueOf s c g i = some x ∧ issue s c g f i run = .next (issueFault s x st)) ∨
    (∃ x, issueOf s c g i = some x ∧ operandsBad x.grp f x.act i = true ∧
      issue s c g f i run = .next (issueFault (poisonMet s none c (some x.blk.ctx)) x .memPoison)) ∨
    issue s c g f i run = .next (modCore s c fun k => k.flag trackStallBit) ∨
    ∃ x, issueOf s c g i = some x ∧ picked s c g = true ∧ asleep s x.pc 8 = false ∧ fetchCheck s x.pc = none ∧
      formOk x.blk.n f i = true ∧ operandsPending x.k g x.grp f x.act i = false ∧ operandsBad x.grp f x.act i = false ∧
      issue s c g f i run = run x := by
  by_cases hc : c < 256
  · by_cases hg : g < 48
    · unfold issue
      rw [onCore_lt hc, onUnit_lt hg]
      split
      · exact .inr (.inl rfl)
      · next x hx =>
        split
        · exact .inr (.inl rfl)
        · next hpick =>
          split
          · next hs => exact .inr (.inr (.inl ⟨x, hx, hs, rfl⟩))
          · next hs =>
            split
            · next st _ => exact .inr (.inr (.inr (.inl ⟨x, st, hx, rfl⟩)))
            · next hf =>
              split
              · exact .inr (.inr (.inr (.inl ⟨x, _, hx, rfl⟩)))
              · next hform =>
                split
                · exact .inr (.inl rfl)
                · next hpend =>
                  split
                  · next hbad => exact .inr (.inr (.inr (.inr (.inl ⟨x, hx, hbad, rfl⟩))))
                  · next hbad =>
                    split
                    · exact .inr (.inl rfl)
                    · split
                      · exact .inr (.inr (.inr (.inr (.inr (.inl rfl)))))
                      · exact .inr (.inr (.inr (.inr (.inr (.inr ⟨x, hx, by simpa using hpick, by simpa using hs, hf,
                          by simpa using hform, by simpa using hpend, by simpa using hbad, rfl⟩)))))
    · exact .inl ⟨fun h => hg h.2, by simp [issue, onCore_lt hc, onUnit, hg]⟩
  · exact .inl ⟨fun h => hc h.1, by simp [issue, onCore, onUnit, hc]⟩

/-- No poisoned register, no poisoned operand. -/
@[simp] theorem operandsBad_clean (grp : Group) (f : Form) (act : List Nat) (i : Insn) (h : grp.bad = []) :
    operandsBad grp f act i = false := by
  simp [operandsBad, h]

/-- An issue that nothing holds runs its instruction. -/
theorem issue_ready {s : State} {c g : Nat} {f : Form} {i : Insn} {x : Issue} (run : Issue → Res) (hc : c < 256)
    (hg : g < 48) (hx : issueOf s c g i = some x) (hk : picked s c g = true) (hw : asleep s x.pc 8 = false)
    (hf : fetchCheck s x.pc = none) (hform : formOk x.blk.n f i = true)
    (hp : operandsPending x.k g x.grp f x.act i = false) (hb : operandsBad x.grp f x.act i = false)
    (ha : f.access = true → x.act ≠ [] → x.grp.holds = [])
    (ht : f.tracked = true → x.act ≠ [] → trackerFull x.k = false) : issue s c g f i run = run x := by
  unfold issue
  rw [onCore_lt hc, onUnit_lt hg]
  simp only [hx, hk, hw, hf, hform, hp, hb, Bool.not_true, Bool.false_eq_true, ↓reduceIte]
  have h1 : (f.access && !x.act.isEmpty && !x.grp.holds.isEmpty) = false := by
    cases h : f.access with
    | false => rfl
    | true =>
      by_cases hn : x.act = []
      · simp [hn]
      · simp [ha h hn]
  have h2 : (f.tracked && !x.act.isEmpty && trackerFull x.k) = false := by
    cases h : f.tracked with
    | false => rfl
    | true =>
      by_cases hn : x.act = []
      · simp [hn]
      · simp [ht h hn]
  simp [h1, h2]

/-- An instruction of a group that can issue and that changes only its own group. -/
theorem laneOp_ready {s : State} {c g : Nat} {f : Form} {i : Insn} {x : Issue} (op : Group → Group → Nat → Group)
    (hc : c < 256) (hg : g < 48) (hx : issueOf s c g i = some x) (hk : picked s c g = true) (hw : asleep s x.pc 8 = false)
    (hf : fetchCheck s x.pc = none) (hform : formOk x.blk.n f i = true)
    (hp : operandsPending x.k g x.grp f x.act i = false) (hb : operandsBad x.grp f x.act i = false) (ha : f.access = false)
    (ht : f.tracked = false) :
    laneOp s c g f i op = .next (advance s x (x.act.foldl (fun grp l => op x.grp grp l) x.grp)) :=
  issue_ready _ hc hg hx hk hw hf hform hp hb (by simp [ha]) (by simp [ht])

end Sys2Proof.Machine
end

