-- ==== Sys2Proof/Laws/Memory.lean ====
section
/-! SUPPORT. Laws of the memory operations: a read after a write, what a write leaves alone, and that every
operation keeps the canonical form (R9, R27, R290). -/

namespace Sys2Proof.Machine

/-- What each step of a fold keeps, the fold keeps. -/
theorem foldl_keeps {α β : Type} {P : β → Prop} {f : β → α → β} (hf : ∀ {b : β}, P b → ∀ a, P (f b a)) (l : List α)
    {b : β} (h : P b) : P (l.foldl f b) := by
  induction l generalizing b with
  | nil => exact h
  | cons a l ih => exact ih (hf h a)

/-! ### Runs of bytes in a table -/

theorem mapWf_putBytes {m : Map Byte} (h : mapWf (0 : Byte) m = true) (a : Nat) (bs : Bytes) :
    mapWf (0 : Byte) (putBytes m a bs) = true := by
  induction bs generalizing m a with
  | nil => exact h
  | cons b bs ih => exact ih (mapWf_mset h a b) (a + 1)

theorem mget_putBytes_out (m : Map Byte) (a : Nat) (bs : Bytes) {x : Nat} (h : x < a ∨ a + bs.length ≤ x) :
    mget (putBytes m a bs) 0 x = mget m 0 x := by
  induction bs generalizing m a with
  | nil => rfl
  | cons b bs ih =>
    simp only [List.length_cons] at h
    rw [putBytes, ih _ _ (by omega), mget_mset_ne _ _ (by omega)]

theorem mget_putBytes_in (m : Map Byte) (a : Nat) (bs : Bytes) {i : Nat}
    (h : i < bs.length) : mget (putBytes m a bs) 0 (a + i) = bs[i] := by
  induction bs generalizing m a i with
  | nil => simp at h
  | cons b bs ih =>
    cases i with
    | zero =>
      rw [putBytes, Nat.add_zero, mget_putBytes_out _ _ _ (by omega)]
      exact mget_mset_same _ _ _ _
    | succ i =>
      have := ih (mset m 0 a b) (a + 1) (i := i) (by simpa using h)
      rw [putBytes, show a + (i + 1) = a + 1 + i by omega, this]
      simp

/-! ### Writes of the module -/

@[simp] theorem dropTags_mem (s : State) (a n : Nat) : (dropTags s a n).mem = s.mem := by
  unfold dropTags
  split
  · split <;> rfl
  · rfl

@[simp] theorem markDirty_mem (s : State) (gs : List Nat) : (markDirty s gs).mem = s.mem := rfl

@[simp] theorem raiseUrgent_mem (s : State) (a n : Nat) : (raiseUrgent s a n).mem = s.mem := by
  unfold raiseUrgent; split <;> rfl

/-- What a write leaves in the byte table. -/
@[simp] theorem memPut_mem (s : State) (a : Nat) (bs : Bytes) : (memPut s a bs).mem = putBytes s.mem a bs := by
  unfold memPut
  simp only []
  split <;> simp

theorem memPut_memOk {s : State} (h : s.memOk) (a : Nat) (bs : Bytes) : (memPut s a bs).memOk := by
  unfold State.memOk at *
  rw [memPut_mem]
  exact mapWf_putBytes h a bs

theorem memPutNum_memOk {s : State} (h : s.memOk) (a n v : Nat) : (memPutNum s a n v).memOk :=
  memPut_memOk h a _

/-- A byte that a write does not cover reads as before. -/
theorem rdByte_memPut_out (s : State) (a : Nat) (bs : Bytes) {x : Nat} (h : x < a ∨ a + bs.length ≤ x) :
    rdByte (memPut s a bs) x = rdByte s x := by
  unfold rdByte
  rw [memPut_mem]
  exact mget_putBytes_out _ _ _ h

/-- A byte that a write covers reads as written. -/
theorem rdByte_memPut_in (s : State) (a : Nat) (bs : Bytes) {i : Nat} (h : i < bs.length) :
    rdByte (memPut s a bs) (a + i) = bs[i] := by
  unfold rdByte
  rw [memPut_mem]
  exact mget_putBytes_in _ a bs h

/-- A run of bytes reads back as written. -/
theorem rdBytes_memPut (s : State) (a : Nat) (bs : Bytes) :
    rdBytes (memPut s a bs) a bs.length = bs := by
  apply List.ext_getElem
  · simp [rdBytes]
  · intro i h₁ h₂
    simp only [rdBytes, List.getElem_map, List.getElem_range]
    exact rdByte_memPut_in s a bs h₂

/-- A number reads back as written, cut to its width. -/
theorem rdNum_memPutNum (s : State) (a n v : Nat) : rdNum (memPutNum s a n v) a n = v % 256 ^ n := by
  have := rdBytes_memPut s a (leBytes n v)
  rw [leBytes_length] at this
  rw [rdNum, memPutNum, this, leVal_leBytes]

@[simp] theorem askWake_mem (s : State) (a n : Nat) : (askWake s a n).mem = s.mem := rfl

@[simp] theorem askRoom_mem (s : State) (a n : Nat) : (askRoom s a n).mem = s.mem := by simp [askRoom]

/-- A hub agent's write is held, and then memory stands, or performed. -/
theorem memWrite_cases (s : State) (a : Nat) (bs : Bytes) :
    (writeWaits s a bs.length = true ∧ (memWrite s a bs).mem = s.mem) ∨
    (writeWaits s a bs.length = false ∧ memWrite s a bs = memPut s a bs) := by
  unfold memWrite
  cases h : writeWaits s a bs.length <;> simp

theorem memWrite_memOk {s : State} (h : s.memOk) (a : Nat) (bs : Bytes) : (memWrite s a bs).memOk := by
  obtain ⟨-, h'⟩ | ⟨-, h'⟩ := memWrite_cases s a bs
  · unfold State.memOk at *; rwa [h']
  · rw [h']; exact memPut_memOk h a bs

/-- A write that lands in parts keeps the canonical form, whichever parts land now. -/
theorem memWriteParts_memOk {s : State} (h : s.memOk) (a : Nat) (bs : Bytes) : (memWriteParts s a bs).memOk :=
  foldl_keeps (P := State.memOk) (fun h w => memWrite_memOk h w.addr w.data) _ h

theorem flushHeld_memOk {s : State} (h : s.memOk) : (flushHeld s).memOk := by
  exact foldl_keeps (P := State.memOk) (fun h w => memWrite_memOk h w.addr w.data) _ h

theorem mapWf_copyRange {m : Map Byte} (h : mapWf (0 : Byte) m = true) (src dst len : Nat) :
    mapWf (0 : Byte) (copyRange m src dst len) = true := by
  exact foldl_keeps (P := fun m => mapWf (0 : Byte) m = true) (fun hm kv => mapWf_mset hm kv.1 kv.2) _ (mapWf_filter h _)

theorem memCopy_memOk {s : State} (h : s.memOk) (src dst len : Nat) : (memCopy s src dst len).memOk :=
  mapWf_copyRange h src dst len

theorem mapWf_clearRange {m : Map Byte} (h : mapWf (0 : Byte) m = true) (a len : Nat) :
    mapWf (0 : Byte) (clearRange m a len) = true := mapWf_filter h _

/-- Memory after reset is canonical. -/
theorem reset_memOk : State.reset.memOk := rfl

end Sys2Proof.Machine
end

