-- ==== Sys2Proof/Laws/PerInstr.lean ====
section
/-! SUPPORT. What the well-formedness of a command says of its instruction word, one lemma per constructor: a
well-formed thread instruction runs in a core and a group slot that exist, and its class and operation fit their
fields (R145, R148, R186). -/

namespace Sys2Proof.Laws.WellFormed

/-- A well-formed command that has an instruction word names a core and a slot of the module, and its class and
operation fit the fields CLASS and OP. -/
def Statement (i : Instr) : Prop :=
  ∀ t, threadWord i = some t → Sys2Proof.WellFormed i = true → t.core < 256 ∧ t.slot < 48 ∧ t.cls < 16 ∧ t.op < 64

theorem statement_of_none {i : Instr} (h : threadWord i = none) : Statement i := fun t ht => by
  rw [h] at ht
  cases ht

theorem statement_of_some {i : Instr} {t : ThreadWord} (h : threadWord i = some t)
    (w : Sys2Proof.WellFormed i = (decide (t.core < 256) && decide (t.slot < 48))) (k : (decide (t.cls < 16) && decide (t.op < 64)) = true) :
    Statement i := fun u hu hw => by
  rw [h] at hu
  cases hu
  rw [w] at hw
  simp only [Bool.and_eq_true, decide_eq_true_eq] at hw k
  exact ⟨hw.1, hw.2, k.1, k.2⟩

theorem powerApply (a) : Statement (.powerApply a) := statement_of_none rfl
theorem powerLoss : Statement .powerLoss := statement_of_none rfl
theorem enHigh : Statement .enHigh := statement_of_none rfl
theorem enLow : Statement .enLow := statement_of_none rfl
theorem powerGoodHandshake : Statement .powerGoodHandshake := statement_of_none rfl
theorem undervoltage : Statement .undervoltage := statement_of_none rfl
theorem railOutOfTolerance (a) : Statement (.railOutOfTolerance a) := statement_of_none rfl
theorem referenceLoss : Statement .referenceLoss := statement_of_none rfl
theorem pllLossOfLock (a) : Statement (.pllLossOfLock a) := statement_of_none rfl
theorem pressPllRelock : Statement .pressPllRelock := statement_of_none rfl
theorem relockEnd : Statement .relockEnd := statement_of_none rfl
theorem powerWindow (a) : Statement (.powerWindow a) := statement_of_none rfl
theorem flowLow : Statement .flowLow := statement_of_none rfl
theorem rennetStage (a) : Statement (.rennetStage a) := statement_of_none rfl
theorem firmwareVerify : Statement .firmwareVerify := statement_of_none rfl
theorem rindUp (a) : Statement (.rindUp a) := statement_of_none rfl
theorem earlyServiceEntry : Statement .earlyServiceEntry := statement_of_none rfl
theorem fullServiceEntry (a) : Statement (.fullServiceEntry a) := statement_of_none rfl
theorem warmStartEntry : Statement .warmStartEntry := statement_of_none rfl
theorem watchdogExpiry : Statement .watchdogExpiry := statement_of_none rfl
theorem recoveryImageWrite (a) : Statement (.recoveryImageWrite a) := statement_of_none rfl
theorem attestReq (a) : Statement (.attestReq a) := statement_of_none rfl
theorem imagePut (a) (b) (c) : Statement (.imagePut a b c) := statement_of_none rfl
theorem start (a) (b) : Statement (.start a b) := statement_of_none rfl
theorem selftest (a) (b) : Statement (.selftest a b) := statement_of_none rfl
theorem selftestRun (a) (b) : Statement (.selftestRun a b) := statement_of_none rfl
theorem meterRead (a) (b) : Statement (.meterRead a b) := statement_of_none rfl
theorem logRead (a) (b) : Statement (.logRead a b) := statement_of_none rfl
theorem scanHold (a) : Statement (.scanHold a) := statement_of_none rfl
theorem mgmtConnect : Statement .mgmtConnect := statement_of_none rfl
theorem debugTokenLoad (a) (b) (c) : Statement (.debugTokenLoad a b c) := statement_of_none rfl
theorem bypass : Statement .bypass := statement_of_none rfl
theorem idcode : Statement .idcode := statement_of_none rfl
theorem samplePreload (a) : Statement (.samplePreload a) := statement_of_none rfl
theorem extest (a) : Statement (.extest a) := statement_of_none rfl
theorem smbusReadSensor (a) : Statement (.smbusReadSensor a) := statement_of_none rfl
theorem smbusReadStatus (a) : Statement (.smbusReadStatus a) := statement_of_none rfl
theorem smbusAlertMask (a) (b) : Statement (.smbusAlertMask a b) := statement_of_none rfl
theorem smbusIdentityRead : Statement .smbusIdentityRead := statement_of_none rfl
theorem smbusAlertResponse : Statement .smbusAlertResponse := statement_of_none rfl
theorem sensorLimitCross (a) (b) : Statement (.sensorLimitCross a b) := statement_of_none rfl
theorem ethFrameReceive (a) (b) : Statement (.ethFrameReceive a b) := statement_of_none rfl
theorem pfcPauseReceive (a) (b) : Statement (.pfcPauseReceive a b) := statement_of_none rfl
theorem cmReq (a) (b) : Statement (.cmReq a b) := statement_of_none rfl
theorem cmDreq (a) : Statement (.cmDreq a) := statement_of_none rfl
theorem hello (a) (b) (c) : Statement (.hello a b c) := statement_of_none rfl
theorem proof (a) (b) (c) : Statement (.proof a b c) := statement_of_none rfl
theorem close (a) : Statement (.close a) := statement_of_none rfl
theorem handshakeTimeout (a) : Statement (.handshakeTimeout a) := statement_of_none rfl
theorem rdmaWrite (a) (b) (c) (d) : Statement (.rdmaWrite a b c d) := statement_of_none rfl
theorem rdmaRead (a) (b) (c) (d) : Statement (.rdmaRead a b c d) := statement_of_none rfl
theorem compareAndSwap (a) (b) (c) (d) (e) : Statement (.compareAndSwap a b c d e) := statement_of_none rfl
theorem fetchAndAdd (a) (b) (c) (d) : Statement (.fetchAndAdd a b c d) := statement_of_none rfl
theorem rdmaSend (a) (b) : Statement (.rdmaSend a b) := statement_of_none rfl
theorem leaseExpiry (a) : Statement (.leaseExpiry a) := statement_of_none rfl
theorem qdbLease (a) (b) : Statement (.qdbLease a b) := statement_of_none rfl
theorem doorbell (a) (b) (c) : Statement (.doorbell a b c) := statement_of_none rfl
theorem commandStart (a) : Statement (.commandStart a) := statement_of_none rfl
theorem commandRetire (a) (b) : Statement (.commandRetire a b) := statement_of_none rfl
theorem launch (a) (b) : Statement (.launch a b) := statement_of_none rfl
theorem ladle (a) (b) : Statement (.ladle a b) := statement_of_none rfl
theorem signal (a) (b) : Statement (.signal a b) := statement_of_none rfl
theorem ctxCreate (a) : Statement (.ctxCreate a) := statement_of_none rfl
theorem ctxDestroy (a) : Statement (.ctxDestroy a) := statement_of_none rfl
theorem queueCreate (a) : Statement (.queueCreate a) := statement_of_none rfl
theorem queueDestroy (a) : Statement (.queueDestroy a) := statement_of_none rfl
theorem memAlloc (a) (b) : Statement (.memAlloc a b) := statement_of_none rfl
theorem memFree (a) : Statement (.memFree a) := statement_of_none rfl
theorem share (a) : Statement (.share a) := statement_of_none rfl
theorem fenceCreate (a) : Statement (.fenceCreate a) := statement_of_none rfl
theorem fenceDestroy (a) : Statement (.fenceDestroy a) := statement_of_none rfl
theorem query (a) : Statement (.query a) := statement_of_none rfl
theorem abort (a) : Statement (.abort a) := statement_of_none rfl
theorem jobJoin (a) : Statement (.jobJoin a) := statement_of_none rfl
theorem setReg (a) : Statement (.setReg a) := statement_of_none rfl
theorem bucketOpen (a) : Statement (.bucketOpen a) := statement_of_none rfl
theorem bucketClose (a) : Statement (.bucketClose a) := statement_of_none rfl
theorem bucketCloseEffect (a) : Statement (.bucketCloseEffect a) := statement_of_none rfl
theorem turnRegions (a) : Statement (.turnRegions a) := statement_of_none rfl
theorem decisionPost (a) : Statement (.decisionPost a) := statement_of_none rfl
theorem decisionDeadlineExpiry (a) : Statement (.decisionDeadlineExpiry a) := statement_of_none rfl
theorem quarantineEnd (a) (b) : Statement (.quarantineEnd a b) := statement_of_none rfl
theorem slotEvict (a) (b) : Statement (.slotEvict a b) := statement_of_none rfl
theorem slotTake (a) (b) : Statement (.slotTake a b) := statement_of_none rfl
theorem preempt (a) : Statement (.preempt a) := statement_of_none rfl
theorem contextSwitch (a) (b) : Statement (.contextSwitch a b) := statement_of_none rfl
theorem ctxCounterUpdate : Statement .ctxCounterUpdate := statement_of_none rfl
theorem blockAdmit (a) : Statement (.blockAdmit a) := statement_of_none rfl
theorem groupResourceFree (a) (b) : Statement (.groupResourceFree a b) := statement_of_none rfl
theorem blockResourceFree (a) (b) : Statement (.blockResourceFree a b) := statement_of_none rfl
theorem launchBlocksEnd (a) (b) : Statement (.launchBlocksEnd a b) := statement_of_none rfl
theorem nop (c) (g) (i) : Statement (.nop c g i) := statement_of_some rfl rfl rfl
theorem bra (c) (g) (i) : Statement (.bra c g i) := statement_of_some rfl rfl rfl
theorem jmp (c) (g) (i) : Statement (.jmp c g i) := statement_of_some rfl rfl rfl
theorem call (c) (g) (i) : Statement (.call c g i) := statement_of_some rfl rfl rfl
theorem ret (c) (g) (i) : Statement (.ret c g i) := statement_of_some rfl rfl rfl
theorem exit (c) (g) (i) : Statement (.exit c g i) := statement_of_some rfl rfl rfl
theorem bar (c) (g) (i) : Statement (.bar c g i) := statement_of_some rfl rfl rfl
theorem syncg (c) (g) (i) : Statement (.syncg c g i) := statement_of_some rfl rfl rfl
theorem mov (c) (g) (i) : Statement (.mov c g i) := statement_of_some rfl rfl rfl
theorem add (c) (g) (i) : Statement (.add c g i) := statement_of_some rfl rfl rfl
theorem sub (c) (g) (i) : Statement (.sub c g i) := statement_of_some rfl rfl rfl
theorem mullo (c) (g) (i) : Statement (.mullo c g i) := statement_of_some rfl rfl rfl
theorem mulhiS (c) (g) (i) : Statement (.mulhiS c g i) := statement_of_some rfl rfl rfl
theorem mulhiU (c) (g) (i) : Statement (.mulhiU c g i) := statement_of_some rfl rfl rfl
theorem mad (c) (g) (i) : Statement (.mad c g i) := statement_of_some rfl rfl rfl
theorem and (c) (g) (i) : Statement (.and c g i) := statement_of_some rfl rfl rfl
theorem or (c) (g) (i) : Statement (.or c g i) := statement_of_some rfl rfl rfl
theorem xor (c) (g) (i) : Statement (.xor c g i) := statement_of_some rfl rfl rfl
theorem shl (c) (g) (i) : Statement (.shl c g i) := statement_of_some rfl rfl rfl
theorem shr (c) (g) (i) : Statement (.shr c g i) := statement_of_some rfl rfl rfl
theorem sar (c) (g) (i) : Statement (.sar c g i) := statement_of_some rfl rfl rfl
theorem minS (c) (g) (i) : Statement (.minS c g i) := statement_of_some rfl rfl rfl
theorem minU (c) (g) (i) : Statement (.minU c g i) := statement_of_some rfl rfl rfl
theorem maxS (c) (g) (i) : Statement (.maxS c g i) := statement_of_some rfl rfl rfl
theorem maxU (c) (g) (i) : Statement (.maxU c g i) := statement_of_some rfl rfl rfl
theorem popc (c) (g) (i) : Statement (.popc c g i) := statement_of_some rfl rfl rfl
theorem clz (c) (g) (i) : Statement (.clz c g i) := statement_of_some rfl rfl rfl
theorem sel (c) (g) (i) : Statement (.sel c g i) := statement_of_some rfl rfl rfl
theorem laneRd (c) (g) (i) : Statement (.laneRd c g i) := statement_of_some rfl rfl rfl
theorem add64 (c) (g) (i) : Statement (.add64 c g i) := statement_of_some rfl rfl rfl
theorem sub64 (c) (g) (i) : Statement (.sub64 c g i) := statement_of_some rfl rfl rfl
theorem fadd (c) (g) (i) : Statement (.fadd c g i) := statement_of_some rfl rfl rfl
theorem fmul (c) (g) (i) : Statement (.fmul c g i) := statement_of_some rfl rfl rfl
theorem fma (c) (g) (i) : Statement (.fma c g i) := statement_of_some rfl rfl rfl
theorem fmin (c) (g) (i) : Statement (.fmin c g i) := statement_of_some rfl rfl rfl
theorem fmax (c) (g) (i) : Statement (.fmax c g i) := statement_of_some rfl rfl rfl
theorem fabs (c) (g) (i) : Statement (.fabs c g i) := statement_of_some rfl rfl rfl
theorem fneg (c) (g) (i) : Statement (.fneg c g i) := statement_of_some rfl rfl rfl
theorem testEq (c) (g) (i) : Statement (.testEq c g i) := statement_of_some rfl rfl rfl
theorem testNe (c) (g) (i) : Statement (.testNe c g i) := statement_of_some rfl rfl rfl
theorem testLtS (c) (g) (i) : Statement (.testLtS c g i) := statement_of_some rfl rfl rfl
theorem testLeS (c) (g) (i) : Statement (.testLeS c g i) := statement_of_some rfl rfl rfl
theorem testGtS (c) (g) (i) : Statement (.testGtS c g i) := statement_of_some rfl rfl rfl
theorem testGeS (c) (g) (i) : Statement (.testGeS c g i) := statement_of_some rfl rfl rfl
theorem testLtU (c) (g) (i) : Statement (.testLtU c g i) := statement_of_some rfl rfl rfl
theorem testLeU (c) (g) (i) : Statement (.testLeU c g i) := statement_of_some rfl rfl rfl
theorem testGtU (c) (g) (i) : Statement (.testGtU c g i) := statement_of_some rfl rfl rfl
theorem testGeU (c) (g) (i) : Statement (.testGeU c g i) := statement_of_some rfl rfl rfl
theorem ftestEq (c) (g) (i) : Statement (.ftestEq c g i) := statement_of_some rfl rfl rfl
theorem ftestNe (c) (g) (i) : Statement (.ftestNe c g i) := statement_of_some rfl rfl rfl
theorem ftestLt (c) (g) (i) : Statement (.ftestLt c g i) := statement_of_some rfl rfl rfl
theorem ftestLe (c) (g) (i) : Statement (.ftestLe c g i) := statement_of_some rfl rfl rfl
theorem ftestGt (c) (g) (i) : Statement (.ftestGt c g i) := statement_of_some rfl rfl rfl
theorem ftestGe (c) (g) (i) : Statement (.ftestGe c g i) := statement_of_some rfl rfl rfl
theorem plogAnd (c) (g) (i) : Statement (.plogAnd c g i) := statement_of_some rfl rfl rfl
theorem plogOr (c) (g) (i) : Statement (.plogOr c g i) := statement_of_some rfl rfl rfl
theorem plogXor (c) (g) (i) : Statement (.plogXor c g i) := statement_of_some rfl rfl rfl
theorem packp (c) (g) (i) : Statement (.packp c g i) := statement_of_some rfl rfl rfl
theorem loadp (c) (g) (i) : Statement (.loadp c g i) := statement_of_some rfl rfl rfl
theorem gany (c) (g) (i) : Statement (.gany c g i) := statement_of_some rfl rfl rfl
theorem gall (c) (g) (i) : Statement (.gall c g i) := statement_of_some rfl rfl rfl
theorem gmask (c) (g) (i) : Statement (.gmask c g i) := statement_of_some rfl rfl rfl
theorem load (c) (g) (sub : BitVec 4) (i) : Statement (.load c g sub i) := statement_of_some rfl rfl (by have := sub.isLt; simp; omega)
theorem store (c) (g) (sub : BitVec 4) (i) : Statement (.store c g sub i) := statement_of_some rfl rfl (by have := sub.isLt; simp; omega)
theorem atomAdd (c) (g) (wide) (i) : Statement (.atomAdd c g wide i) := statement_of_some rfl rfl (by cases wide <;> rfl)
theorem atomFadd (c) (g) (wide) (i) : Statement (.atomFadd c g wide i) := statement_of_some rfl rfl (by cases wide <;> rfl)
theorem atomMinS (c) (g) (wide) (i) : Statement (.atomMinS c g wide i) := statement_of_some rfl rfl (by cases wide <;> rfl)
theorem atomMinU (c) (g) (wide) (i) : Statement (.atomMinU c g wide i) := statement_of_some rfl rfl (by cases wide <;> rfl)
theorem atomMaxS (c) (g) (wide) (i) : Statement (.atomMaxS c g wide i) := statement_of_some rfl rfl (by cases wide <;> rfl)
theorem atomMaxU (c) (g) (wide) (i) : Statement (.atomMaxU c g wide i) := statement_of_some rfl rfl (by cases wide <;> rfl)
theorem atomAnd (c) (g) (wide) (i) : Statement (.atomAnd c g wide i) := statement_of_some rfl rfl (by cases wide <;> rfl)
theorem atomOr (c) (g) (wide) (i) : Statement (.atomOr c g wide i) := statement_of_some rfl rfl (by cases wide <;> rfl)
theorem atomXor (c) (g) (wide) (i) : Statement (.atomXor c g wide i) := statement_of_some rfl rfl (by cases wide <;> rfl)
theorem atomExch (c) (g) (wide) (i) : Statement (.atomExch c g wide i) := statement_of_some rfl rfl (by cases wide <;> rfl)
theorem atomCas (c) (g) (wide) (i) : Statement (.atomCas c g wide i) := statement_of_some rfl rfl (by cases wide <;> rfl)
theorem fence (c) (g) (i) : Statement (.fence c g i) := statement_of_some rfl rfl rfl
theorem srd (c) (g) (i) : Statement (.srd c g i) := statement_of_some rfl rfl rfl
theorem mxissue (c) (g) (i) : Statement (.mxissue c g i) := statement_of_some rfl rfl rfl
theorem mxwait (c) (g) (i) : Statement (.mxwait c g i) := statement_of_some rfl rfl rfl
theorem wxissue (c) (g) (i) : Statement (.wxissue c g i) := statement_of_some rfl rfl rfl
theorem wxwait (c) (g) (i) : Statement (.wxwait c g i) := statement_of_some rfl rfl rfl
theorem cvt (c) (g) (i) : Statement (.cvt c g i) := statement_of_some rfl rfl rfl
theorem trackedAccessRelease (a) (b) : Statement (.trackedAccessRelease a b) := statement_of_none rfl
theorem loadReturn (a) (b) : Statement (.loadReturn a b) := statement_of_none rfl
theorem writePerformed (a) (b) : Statement (.writePerformed a b) := statement_of_none rfl
theorem atomicPerformed (a) (b) : Statement (.atomicPerformed a b) := statement_of_none rfl
theorem releaseWaitEnd (a) (b) : Statement (.releaseWaitEnd a b) := statement_of_none rfl
theorem remoteReleasePerform (a) : Statement (.remoteReleasePerform a) := statement_of_none rfl
theorem pressLoadStart (a) : Statement (.pressLoadStart a) := statement_of_none rfl
theorem pressLoadEnd (a) : Statement (.pressLoadEnd a) := statement_of_none rfl
theorem pressSwap (a) : Statement (.pressSwap a) := statement_of_none rfl
theorem pressRowEntry (a) : Statement (.pressRowEntry a) := statement_of_none rfl
theorem pressOutputWrite (a) (b) : Statement (.pressOutputWrite a b) := statement_of_none rfl
theorem pressRerun (a) : Statement (.pressRerun a) := statement_of_none rfl
theorem descriptorComplete (a) : Statement (.descriptorComplete a) := statement_of_none rfl
theorem batchOpen (a) : Statement (.batchOpen a) := statement_of_none rfl
theorem batchWaitExpiry (a) : Statement (.batchWaitExpiry a) := statement_of_none rfl
theorem pressClockStop (a) : Statement (.pressClockStop a) := statement_of_none rfl
theorem domainWake (a) : Statement (.domainWake a) := statement_of_none rfl
theorem pressCoCtlWrite (a) (b) : Statement (.pressCoCtlWrite a b) := statement_of_none rfl
theorem pressCcWrite (a) (b) (c) (d) : Statement (.pressCcWrite a b c d) := statement_of_none rfl
theorem pressSatFree (a) (b) : Statement (.pressSatFree a b) := statement_of_none rfl
theorem chainGroupEntry (a) : Statement (.chainGroupEntry a) := statement_of_none rfl
theorem chainGroupWrite (a) (b) : Statement (.chainGroupWrite a b) := statement_of_none rfl
theorem wheyGroupRerun (a) (b) : Statement (.wheyGroupRerun a b) := statement_of_none rfl
theorem chainComplete (a) : Statement (.chainComplete a) := statement_of_none rfl
theorem wheyCcWrite (a) (b) (c) (d) : Statement (.wheyCcWrite a b c d) := statement_of_none rfl
theorem cultureWrite (a) (b) (c) : Statement (.cultureWrite a b c) := statement_of_none rfl
theorem ladleSubmit (a) (b) (c) : Statement (.ladleSubmit a b c) := statement_of_none rfl
theorem ladleCommandStart (a) : Statement (.ladleCommandStart a) := statement_of_none rfl
theorem ladleBlock (a) (b) : Statement (.ladleBlock a b) := statement_of_none rfl
theorem ladleComplete (a) : Statement (.ladleComplete a) := statement_of_none rfl
theorem nvmeCommandComplete (a) (b) : Statement (.nvmeCommandComplete a b) := statement_of_none rfl
theorem pcieLinkDown (a) : Statement (.pcieLinkDown a) := statement_of_none rfl
theorem nvmeEnable (a) (b) : Statement (.nvmeEnable a b) := statement_of_none rfl
theorem cavePark (a) : Statement (.cavePark a) := statement_of_none rfl
theorem caveWake (a) : Statement (.caveWake a) := statement_of_none rfl
theorem patrolScrub (a) (b) : Statement (.patrolScrub a b) := statement_of_none rfl
theorem qwRegenerate : Statement .qwRegenerate := statement_of_none rfl
theorem regenCheckDone (a) : Statement (.regenCheckDone a) := statement_of_none rfl
theorem phaseSet (a) (b) : Statement (.phaseSet a b) := statement_of_none rfl
theorem shardPtr (a) (b) : Statement (.shardPtr a b) := statement_of_none rfl
theorem segReplay (a) (b) : Statement (.segReplay a b) := statement_of_none rfl
theorem turningPoint : Statement .turningPoint := statement_of_none rfl
theorem turningGranule (a) : Statement (.turningGranule a) := statement_of_none rfl
theorem mirrorComplete : Statement .mirrorComplete := statement_of_none rfl
theorem coreRemap (a) : Statement (.coreRemap a) := statement_of_none rfl
theorem heartbeatTimer : Statement .heartbeatTimer := statement_of_none rfl
theorem memberLossExpiry (a) : Statement (.memberLossExpiry a) := statement_of_none rfl
theorem standbyTakeover : Statement .standbyTakeover := statement_of_none rfl
theorem mirrorAckTimeout : Statement .mirrorAckTimeout := statement_of_none rfl
theorem mailboxHeartbeat (a) (b) : Statement (.mailboxHeartbeat a b) := statement_of_none rfl
theorem mailboxReport (a) (b) : Statement (.mailboxReport a b) := statement_of_none rfl
theorem mailboxMirror (a) (b) : Statement (.mailboxMirror a b) := statement_of_none rfl
theorem mailboxAck (a) (b) : Statement (.mailboxAck a b) := statement_of_none rfl
theorem mailboxDecision (a) (b) : Statement (.mailboxDecision a b) := statement_of_none rfl
theorem decisionGo (a) (b) : Statement (.decisionGo a b) := statement_of_none rfl
theorem mailboxReady (a) (b) : Statement (.mailboxReady a b) := statement_of_none rfl
theorem spareMirrorCopy : Statement .spareMirrorCopy := statement_of_none rfl
theorem hoopScaleReady (a) (b) : Statement (.hoopScaleReady a b) := statement_of_none rfl
theorem hoopBucketReady (a) (b) : Statement (.hoopBucketReady a b) := statement_of_none rfl
theorem bucketStepOpen (a) : Statement (.bucketStepOpen a) := statement_of_none rfl
theorem bucketMatchLoad (a) : Statement (.bucketMatchLoad a) := statement_of_none rfl
theorem reduceScaleRs (a) (b) : Statement (.reduceScaleRs a b) := statement_of_none rfl
theorem reduceScaleAg (a) (b) : Statement (.reduceScaleAg a b) := statement_of_none rfl
theorem reduceRedRs (a) (b) (c) : Statement (.reduceRedRs a b c) := statement_of_none rfl
theorem reduceRedAg (a) (b) : Statement (.reduceRedAg a b) := statement_of_none rfl
theorem reduceAck (a) (b) : Statement (.reduceAck a b) := statement_of_none rfl
theorem reduceNak (a) (b) : Statement (.reduceNak a b) := statement_of_none rfl
theorem reduceAckTimer (a) : Statement (.reduceAckTimer a) := statement_of_none rfl
theorem reduceResendTimeout (a) : Statement (.reduceResendTimeout a) := statement_of_none rfl
theorem rescaleAssistReturn (a) : Statement (.rescaleAssistReturn a) := statement_of_none rfl
theorem bucketStepComplete (a) : Statement (.bucketStepComplete a) := statement_of_none rfl
theorem holdWindowExpiry (a) : Statement (.holdWindowExpiry a) := statement_of_none rfl
theorem ripenCopy (a) : Statement (.ripenCopy a) := statement_of_none rfl
theorem hoopStallExpiry (a) : Statement (.hoopStallExpiry a) := statement_of_none rfl
theorem flitReceive (a) (b) : Statement (.flitReceive a b) := statement_of_none rfl
theorem failoverFlit (a) (b) : Statement (.failoverFlit a b) := statement_of_none rfl
theorem trainFlit (a) (b) : Statement (.trainFlit a b) := statement_of_none rfl
theorem linkRetryTimeout (a) : Statement (.linkRetryTimeout a) := statement_of_none rfl
theorem packetInject : Statement .packetInject := statement_of_none rfl
theorem transitForward (a) (b) (c) : Statement (.transitForward a b c) := statement_of_none rfl
theorem transitHoldExpiry (a) (b) : Statement (.transitHoldExpiry a b) := statement_of_none rfl
theorem write (a) (b) : Statement (.write a b) := statement_of_none rfl
theorem readReq (a) (b) : Statement (.readReq a b) := statement_of_none rfl
theorem readRsp (a) (b) : Statement (.readRsp a b) := statement_of_none rfl
theorem atomic (a) (b) : Statement (.atomic a b) := statement_of_none rfl
theorem atomicRsp (a) (b) : Statement (.atomicRsp a b) := statement_of_none rfl
theorem writeCpl (a) (b) : Statement (.writeCpl a b) := statement_of_none rfl
theorem errorRsp (a) (b) : Statement (.errorRsp a b) := statement_of_none rfl
theorem remoteTimeout (a) : Statement (.remoteTimeout a) := statement_of_none rfl
theorem tagQuarantineEnd (a) : Statement (.tagQuarantineEnd a) := statement_of_none rfl
theorem routeDrain : Statement .routeDrain := statement_of_none rfl
theorem routeTableLoad : Statement .routeTableLoad := statement_of_none rfl
theorem routeCacheReady (a) : Statement (.routeCacheReady a) := statement_of_none rfl
theorem linkTrainStateDone (a) (b) : Statement (.linkTrainStateDone a b) := statement_of_none rfl
theorem trainLimitExpiry (a) : Statement (.trainLimitExpiry a) := statement_of_none rfl
theorem retrain (a) : Statement (.retrain a) := statement_of_none rfl
theorem activityFrame : Statement .activityFrame := statement_of_none rfl
theorem meterFrameAccept (a) : Statement (.meterFrameAccept a) := statement_of_none rfl
theorem intervalClose (a) (b) : Statement (.intervalClose a b) := statement_of_none rfl
theorem meterPowerLoss (a) (b) : Statement (.meterPowerLoss a b) := statement_of_none rfl
theorem serviceContactClose (a) (b) : Statement (.serviceContactClose a b) := statement_of_none rfl
theorem meterAbsent (a) : Statement (.meterAbsent a) := statement_of_none rfl
theorem meterSealedFault (a) : Statement (.meterSealedFault a) := statement_of_none rfl
theorem setCal (a) : Statement (.setCal a) := statement_of_none rfl
theorem setInterval (a) : Statement (.setInterval a) := statement_of_none rfl
theorem calCheck (a) : Statement (.calCheck a) := statement_of_none rfl
theorem fwUpdate (a) : Statement (.fwUpdate a) := statement_of_none rfl
theorem meterExit (a) : Statement (.meterExit a) := statement_of_none rfl
theorem faultTriage (a) : Statement (.faultTriage a) := statement_of_none rfl
theorem thresholdWindowEnd : Statement .thresholdWindowEnd := statement_of_none rfl
theorem faultLogAppend : Statement .faultLogAppend := statement_of_none rfl
theorem readWheyNanCnt (a) : Statement (.readWheyNanCnt a) := statement_of_none rfl
theorem readPressSatOther (a) : Statement (.readPressSatOther a) := statement_of_none rfl
theorem readRuongDrop : Statement .readRuongDrop := statement_of_none rfl
theorem readRuongPerr (a) : Statement (.readRuongPerr a) := statement_of_none rfl
theorem readRuongPcorr (a) : Statement (.readRuongPcorr a) := statement_of_none rfl
theorem readHoopDrop : Statement .readHoopDrop := statement_of_none rfl
theorem readHoopChk : Statement .readHoopChk := statement_of_none rfl
theorem readHoopRscl : Statement .readHoopRscl := statement_of_none rfl
theorem readObjDrop : Statement .readObjDrop := statement_of_none rfl
theorem readIntegCorr : Statement .readIntegCorr := statement_of_none rfl
theorem readIntegUncorr : Statement .readIntegUncorr := statement_of_none rfl
theorem readEthCnt (a) : Statement (.readEthCnt a) := statement_of_none rfl
theorem readPcieLerr (a) : Statement (.readPcieLerr a) := statement_of_none rfl
theorem registerWrite (a) (b) (c) (d) : Statement (.registerWrite a b c d) := statement_of_none rfl
theorem referenceReturn : Statement .referenceReturn := statement_of_none rfl
theorem meterPowerReturn (a) (b) : Statement (.meterPowerReturn a b) := statement_of_none rfl
theorem serviceContactOpen (a) (b) : Statement (.serviceContactOpen a b) := statement_of_none rfl
theorem ethLinkUp (a) : Statement (.ethLinkUp a) := statement_of_none rfl
theorem ethLinkDown (a) : Statement (.ethLinkDown a) := statement_of_none rfl

end Sys2Proof.Laws.WellFormed
end

