-- ==== Sys2Proof/Laws/Queues.lean ====
section
/-! SUPPORT. Laws of the object tables: reads after updates, fence signals, and the waits and settlements that leave the
state alone (R470, R480, R487, R496). -/

namespace Sys2Proof.Machine

/-! ### Reads after updates -/

theorem queue?_modQueue_same {s : State} {q : Nat} {x : Queue} (h : queue? s q = some x) (f : Queue → Queue) :
    queue? (modQueue s q f) q = some (f x) := by
  simp only [modQueue, h]
  exact mget?_mput_same ..

theorem queue?_modQueue_ne (s : State) {q r : Nat} (h : r ≠ q) (f : Queue → Queue) :
    queue? (modQueue s q f) r = queue? s r := by
  unfold modQueue
  split
  · exact mget?_mput_ne _ h _
  · rfl

theorem ctx?_modCtx_same {s : State} {i : Nat} {x : Context} (h : ctx? s i = some x) (f : Context → Context) :
    ctx? (modCtx s i f) i = some (f x) := by
  simp only [modCtx, h]
  exact mget?_mput_same ..

theorem ctx?_modCtx_ne (s : State) {i j : Nat} (h : j ≠ i) (f : Context → Context) :
    ctx? (modCtx s i f) j = ctx? s j := by
  unfold modCtx
  split
  · exact mget?_mput_ne _ h _
  · rfl

@[simp] theorem modQueue_mem (s : State) (q : Nat) (f : Queue → Queue) : (modQueue s q f).mem = s.mem := by
  unfold modQueue; split <;> rfl
@[simp] theorem modQueue_cores (s : State) (q : Nat) (f : Queue → Queue) : (modQueue s q f).cores = s.cores := by
  unfold modQueue; split <;> rfl
@[simp] theorem modQueue_pending (s : State) (q : Nat) (f : Queue → Queue) : (modQueue s q f).pending = s.pending := by
  unfold modQueue; split <;> rfl
@[simp] theorem modQueue_ctx? (s : State) (q : Nat) (f : Queue → Queue) (i : Nat) :
    ctx? (modQueue s q f) i = ctx? s i := by
  unfold modQueue; split <;> rfl
@[simp] theorem modCmd_mem (s : State) (q n : Nat) (f : Cmd → Cmd) : (modCmd s q n f).mem = s.mem := modQueue_mem ..
@[simp] theorem modCmd_cores (s : State) (q n : Nat) (f : Cmd → Cmd) : (modCmd s q n f).cores = s.cores := modQueue_cores ..
@[simp] theorem modCmd_pending (s : State) (q n : Nat) (f : Cmd → Cmd) : (modCmd s q n f).pending = s.pending :=
  modQueue_pending ..
@[simp] theorem modCtx_mem (s : State) (i : Nat) (f : Context → Context) : (modCtx s i f).mem = s.mem := by
  unfold modCtx; split <;> rfl
@[simp] theorem modCtx_pending (s : State) (i : Nat) (f : Context → Context) : (modCtx s i f).pending = s.pending := by
  unfold modCtx; split <;> rfl

/-! ### Waits -/

/-- A queue whose head command waits for no fence is left alone. -/
theorem settleWait_plain {s : State} {q : Nat} (h : ∀ x, queue? s q = some x → ∀ c ∈ x.cmds, eWaitEn c.entry = false) :
    settleWait s q = s := by
  unfold settleWait
  split
  · rfl
  · next x hx =>
    split
    · rfl
    · next c hc =>
      have hm : c ∈ x.cmds := List.mem_of_find?_eq_some hc
      simp [h x hx c hm]

/-- While no command of any queue waits for a fence, looking at the waits changes nothing (R487). -/
theorem settleWaits_plain {s : State} (h : ∀ q x, queue? s q = some x → ∀ c ∈ x.cmds, eWaitEn c.entry = false) :
    settleWaits s = s := by
  unfold settleWaits
  suffices ∀ l : List (Nat × Queue), l.foldl (fun s kv => settleWait s kv.1) s = s from this _
  intro l
  induction l with
  | nil => rfl
  | cons kv l ih => rw [List.foldl_cons, settleWait_plain (h kv.1), ih]

/-- An entry that names no object and no fence gives no reference back and takes none (R479). -/
theorem entryRefs_plain {e : Bytes} (hw : eWaitEn e = false) (hs : eSigFence e = 0) (hn : eNobj e = 0) (s : State)
    (up : Bool) : entryRefs s e up = s := by
  simp [entryRefs, hw, hs, hn]

/-- A queue that is not being destroyed is left alone (R501). -/
theorem settleQueue_alive {s : State} {q : Nat} (h : ∀ x, queue? s q = some x → x.state ≠ 3) : settleQueue s q = s := by
  unfold settleQueue
  split
  · rfl
  · next x hx => simp [h x hx]

/-! ### Fence signals (R487) -/

/-- A signal on a fence of another generation, or on none, is dropped and counted in STALE_SIG. -/
theorem signalFence_stale {s : State} {h : Nat} (v : Nat) (st : Status)
    (hs : ∀ f, fence? s (fld h 15 0) = some f → f.gen ≠ BitVec.ofNat 8 (fld h 23 16)) :
    signalFence s h v st = objDrop s 16 := by
  unfold signalFence
  simp only []
  split
  · rfl
  · next f hf => simp [hs f hf]

/-! ### Retirement (R480) -/

@[simp] theorem memPut_obj (s : State) (a : Nat) (bs : Bytes) : (memPut s a bs).obj = s.obj := by
  have h : (dropTags s a bs.length).obj = s.obj := by
    unfold dropTags
    split
    · split <;> rfl
    · rfl
  unfold memPut
  simp only []
  split <;> exact h

@[simp] theorem memWrite_obj (s : State) (a : Nat) (bs : Bytes) : (memWrite s a bs).obj = s.obj := by
  unfold memWrite
  split
  · show (raiseUrgent s a bs.length).obj = s.obj
    unfold raiseUrgent
    split <;> rfl
  · exact memPut_obj s a bs

@[simp] theorem queue?_memWrite (s : State) (a : Nat) (bs : Bytes) (q : Nat) : queue? (memWrite s a bs) q = queue? s q := by
  simp [queue?]

/-- A command that names no fence and no object retires, while no command waits for a fence and its queue is not being
destroyed: its completion record is written, RI moves on and the command is gone, and that is all. -/
theorem doRetire_plain {s : State} {q : Nat} {x : Queue} {c : Cmd} (hx : queue? s q = some x)
    (hc : cmd? s q c.seq = some c) (hw : eWaitEn c.entry = false) (hs : eSigFence c.entry = 0) (hn : eNobj c.entry = 0)
    (hwaits : c.waits = false) (hx3 : x.state ≠ 3)
    (hno : ∀ r y, queue? s r = some y → ∀ d ∈ y.cmds, eWaitEn d.entry = false) :
    doRetire s q c.seq =
      modQueue (memWrite s (x.cpl + 16 * (x.ri.toNat % 2 ^ x.k)) (cplRec c.seq x.k (c.st.getD .ok) c.result)) q
        fun y => { y with ri := y.ri + 1, cmds := y.cmds.filter fun d => d.seq ≠ c.seq } := by
  have hq : ∀ r y, queue? (modQueue (memWrite s (x.cpl + 16 * (x.ri.toNat % 2 ^ x.k))
      (cplRec c.seq x.k (c.st.getD .ok) c.result)) q
      fun y => { y with ri := y.ri + 1, cmds := y.cmds.filter fun d => d.seq ≠ c.seq }) r = some y →
      (∀ d ∈ y.cmds, eWaitEn d.entry = false) ∧ (r = q → y.state ≠ 3) := by
    intro r y hy
    by_cases hr : r = q
    · subst hr
      rw [queue?_modQueue_same (x := x) (by simpa using hx)] at hy
      cases hy
      exact ⟨fun d hd => hno r x hx d (List.mem_filter.1 hd).1, fun _ => hx3⟩
    · rw [queue?_modQueue_ne _ hr, queue?_memWrite] at hy
      exact ⟨hno r y hy, fun h => absurd h hr⟩
  unfold doRetire
  simp only [hx, hc, hs, hwaits, ne_eq, not_true_eq_false, decide_false, Bool.false_and, Bool.false_eq_true, ↓reduceIte,
    entryRefs_plain hw hs hn, ite_self]
  rw [settleWaits_plain fun r y hy => (hq r y hy).1, settleQueue_alive fun y hy => (hq q y hy).2 rfl]

/-! ### Admin commands (R479, R482) -/

/-- Everything an admin command can do: nothing; the retirement of a STRICT command whose wait found an error; or what
the command makes of the state in which it has started, retired with the status and RESULT that it ends with. -/
theorem admin_cases (s : State) (q opc : Nat) (run : State → Queue → Cmd → AdminEnd) :
    admin s q opc run = .next s ∨
    ∃ x c, queue? s q = some x ∧ x.ctx = none ∧ startable s x = some c ∧ eOpc c.entry = opc ∧
      ((depFailed c = true ∧ admin s q opc run = .next (finish s q c.seq .depFailed)) ∨
       (depFailed c = false ∧
        admin s q opc run = .next (finish (run (markStarted s q c.seq) x c).1 q c.seq
          (run (markStarted s q c.seq) x c).2.1 (run (markStarted s q c.seq) x c).2.2))) := by
  unfold admin adminCmd
  split
  · exact .inl rfl
  · next x hx =>
    split
    · exact .inl rfl
    · next hctx =>
      split
      · exact .inl rfl
      · next c hc =>
        split
        · exact .inl rfl
        · next hop =>
          refine .inr ⟨x, c, hx, by simpa using hctx, hc, by simpa using hop, ?_⟩
          split
          · exact .inl ⟨‹_›, rfl⟩
          · next hd => exact .inr ⟨by simpa using hd, rfl⟩

end Sys2Proof.Machine
end

