-- ==== Sys2Proof/Tests/Slice0.lean ====
section
/-! SUPPORT. Tests: ill-formed commands that the check of well-formedness refuses, instruction words written out from
the encoding tables, small results worked out from the rules, and for every statement states and operands that meet its
hypotheses. -/

namespace Sys2Proof.Tests

open Sys2Proof.Machine Sys2Proof.Says

/- Each test is one evaluation by the kernel, which takes them one after another. -/
set_option Elab.async false

/-! ## Small states -/

/-- A context with every core, active, in session 0 with a slot. -/
def ctxA : Context :=
  { state := 1, gen := 1, job := 7, loss := .ok, sess := 0, lossCore := 0, cores := BitVec.allOnes 256, issued := 0
    resident := 0, pressBusy := 0, wheyBusy := 0, ladleBytes := 0, save := 0, saveObj := none, lossQueue := 0, lossSeq := 0
    mems := [], fences := [], slot := true, stamp := 0, dying := false, base := [], saved := [] }

/-- A block of one group with 32 registers and one scratchpad unit. -/
def blkA : Block :=
  { ctx := 0, launch := (1, 0), bid := 5, g := 1, n := 32, u := 1, base := 0, slots := [0], bars := [], ladles := 0
    told := false }

/-- A group at an address: lane 0 has t1 = 5, t2 = 7, the address 0x10000 in t4 and t5, and p1; lane 1 has t1 = 6. -/
def grpA (pc : Nat) : Group :=
  { blk := 0, gid := 0, paths := [⟨3, pc⟩], ended := 0xFFFFFFFC
    regs := [(1, 5), (2, 7), (4, 0x10000), (257, 6), (260, 0x10004)], preds := [(0, 2)], barWait := [], barDone := 0
    holds := [], units := [0, 1, 2, 3], bad := [], rels := [] }

/-- A core that runs a group of context 0. -/
def coreA (pc : Nat) : Core := { ctx := some 0, groups := [(0, grpA pc)], blocks := [(0, blkA)] }

/-- A configuration: a torus of 4 × 4 × 4 with the board at the origin, every duty in hardware mode, one client. -/
def cfgA : Cfg :=
  { image := [], digest := [], duty := 0, torus := 0x0633, origin := 0, ilv := 0, seq := 1, deadline := [0, 0, 0, 0]
    clients := [([1], 7)], net := {}, owner := [] }

/-- The module in full service with one core at work. -/
def full : State :=
  { State.reset with
    start := { cfg := some cfgA, stage := 4, stackUp := 0xFFFFFF, caveUp := 0xFFFF, released := true, up := true }
    clk := { stat := 0xFFFFFFFFF }
    cores := [(0, coreA 0x1000)]
    obj := { ctxs := [(0, ctxA)] } }

/-- As `full`, with another core 0. -/
def withCore (k : Core) : State := { full with cores := [(0, k)] }

/-- The state that a step leaves, or reset. -/
def after (r : Host.Outcome State Fault Refusal) : State := match r with | .next t => t | _ => State.reset

/-- Whether a command answers a next state. -/
def goesOn (r : Host.Outcome State Fault Refusal) : Bool := match r with | .next _ => true | _ => false

/-- Whether the group can issue an instruction of a form, and what more holds of the issue. -/
def canIssue (s : State) (c g : Nat) (f : Form) (i : Insn) (p : Issue → Bool := fun _ => true) : Bool :=
  match issueOf s c g i with
  | none => false
  | some x => decide (c < 256) && decide (g < 48) && (fetchCheck s x.pc).isNone && formOk x.blk.n f i &&
      !operandsPending x.k g x.grp f x.act i && !operandsBad x.grp f x.act i && picked s c g && !asleep s x.pc 8 && p x

theorem ready_of {s : State} {c g : Nat} {f : Form} {i : Insn} {p : Issue → Bool} (h : canIssue s c g f i p = true) :
    ∃ x, Ready s c g f i x ∧ p x = true := by
  unfold canIssue at h
  split at h
  · cases h
  · next x hx =>
    simp only [Bool.and_eq_true, decide_eq_true_eq, Bool.not_eq_true', Option.isNone_iff_eq_none] at h
    obtain ⟨⟨⟨⟨⟨⟨⟨⟨h1, h2⟩, h3⟩, h4⟩, h5⟩, h6⟩, h7⟩, h8⟩, h9⟩ := h
    exact ⟨x, ⟨h1, h2, hx, h7, h8, h3, h4, h5, h6⟩, h9⟩

/-- As `canIssue`, for an instruction that reaches memory. -/
def canAccess (s : State) (c g : Nat) (f : Form) (i : Insn) (p : Issue → Bool := fun _ => true) : Bool :=
  canIssue s c g f i fun x => x.grp.holds.isEmpty && !trackerFull x.k && !x.act.isEmpty && p x

theorem readyMem_of {s : State} {c g : Nat} {f : Form} {i : Insn} {p : Issue → Bool}
    (h : canAccess s c g f i p = true) : ∃ x, ReadyMem s c g f i x ∧ p x = true := by
  obtain ⟨x, hx, hp⟩ := ready_of h
  simp only [Bool.and_eq_true, Bool.not_eq_true', List.isEmpty_iff] at hp
  exact ⟨x, { hx with unheld := hp.1.1.1, room := hp.1.1.2, some := by simpa using hp.1.2 }, hp.2⟩

/-- Where nothing holds writes, every range of HBM takes them at once. -/
theorem open_of {s : State} {a n : Nat} (h : s.turn.run = none ∧ s.memCtl.parked = 0 ∧ s.clk.down = 0 ∧ s.qw.reads = [] ∧
    s.turn.held = []) (hn : a + n < 0x030000000000) : Open s a n := by
  intro b m hb hm
  have hr : regionOf b = .hbm := by unfold regionOf; rw [if_pos (by omega)]
  obtain ⟨h1, h2, h3, h4, h5⟩ := h
  simp [writeWaits, writeHeld, bankHeld, hr, pendingGranules, h1, srcHeld, h4, asleep, h2, unclocked, h3, h5]

/-- t3, t1 and t2 in the register fields; the immediate 9; and a guard by p1. -/
def iReg : Insn := { dst := 3, a := 1, tail := 0x02000000 }
def iImm9 : Insn := { fmt := true, dst := 3, a := 1, tail := 9 }
def iGuard : Insn := { pe := true, pi := 1, dst := 3, a := 1, tail := 0x02000000 }
def iPair : Insn := { dst := 6, a := 4, tail := 0x04000000 }

/-! ## Well-formedness: a term that the check of each unit refuses -/

theorem test_wf_core : WellFormed (.add 256 0 {}) = false := by decide
theorem test_wf_group_slot : WellFormed (.add 0 48 {}) = false := by decide
theorem test_wf_core_alone : WellFormed (.blockAdmit 256) = false := by decide
theorem test_wf_block_slot : WellFormed (.blockResourceFree 0 16) = false := by decide
theorem test_wf_ladle_slot : WellFormed (.ladleSubmit 0 48 0) = false := by decide
theorem test_wf_rail : WellFormed (.railOutOfTolerance 7) = false := by decide
theorem test_wf_pll : WellFormed (.pllLossOfLock 36) = false := by decide
theorem test_wf_connection : WellFormed (.scanHold 4) = false := by decide
theorem test_wf_sensor : WellFormed (.smbusReadSensor 64) = false := by decide
theorem test_wf_service_port : WellFormed (.ethLinkUp 2) = false := by decide
theorem test_wf_queue_pair : WellFormed (.cmDreq 8192) = false := by decide
theorem test_wf_session : WellFormed (.leaseExpiry 1024) = false := by decide
theorem test_wf_queue : WellFormed (.commandStart 16384) = false := by decide
theorem test_wf_bucket : WellFormed (.bucketStepOpen 65536) = false := by decide
theorem test_wf_function : WellFormed (.decisionDeadlineExpiry 8) = false := by decide
theorem test_wf_counter : WellFormed (.pressCcWrite 0 64 0 false) = false := by decide
theorem test_wf_saturation_entry : WellFormed (.pressSatFree 0 32) = false := by decide
theorem test_wf_culture_lane : WellFormed (.cultureWrite 0 (some 64) 0) = false := by decide
theorem test_wf_ladle : WellFormed (.ladleBlock 16 0) = false := by decide
theorem test_wf_pcie_link : WellFormed (.pcieLinkDown 4) = false := by decide
theorem test_wf_cave_channel : WellFormed (.cavePark 16) = false := by decide
theorem test_wf_port : WellFormed (.retrain 12) = false := by decide
theorem test_wf_mailbox : WellFormed (.mailboxHeartbeat 13 0) = false := by decide
theorem test_wf_channel : WellFormed (.readReq 0 32) = false := by decide
theorem test_wf_wake_press : WellFormed (.domainWake (.press 256)) = false := by decide
theorem test_wf_wake_cave : WellFormed (.domainWake (.cave 16)) = false := by decide
theorem test_wf_wake_port : WellFormed (.domainWake (.port 12)) = false := by decide
theorem test_wf_accepts : WellFormed (.add 255 47 {}) = true := by decide

/-- Witness of the hypothesis of WellFormedCommandsRun, with the fault of a core that does not exist beside it. -/
theorem test_wf_runs : WellFormed (.fence 255 47 {}) = true ∧ exec (.fence 256 0 {}) full = .fault .noSuchUnit :=
  ⟨by decide, rfl⟩

/-! ## Instruction words, written field by field: CLASS, OP, FMT, PE, PN, PI, DST, SRC_A, tail (R186) -/

/-- CTL JMP t4 (R194). -/
theorem test_decode_jmp : decodeThread 2 9 0b0000_000010_0_0_0_000_00000000_00000100_00000000000000000000000000000000#64 =
    some (.jmp 2 9 { a := 4 }) := by decide +kernel
/-- INT SUB t3, t1, t2 (R196). -/
theorem test_decode_sub : decodeThread 0 0 0b0001_000010_0_0_0_000_00000011_00000001_00000010_00000000_0000000000000000#64 =
    some (.sub 0 0 { dst := 3, a := 1, tail := 0x02000000 }) := by decide +kernel
/-- FLT FMA t3, t1, t2, t5 (R198). -/
theorem test_decode_fma : decodeThread 0 0 0b0010_000010_0_0_0_000_00000011_00000001_00000010_00000101_0000000000000000#64 =
    some (.fma 0 0 { dst := 3, a := 1, tail := 0x02050000 }) := by decide +kernel
/-- PRD TEST.LT.S p3, t1, 9 (R199). -/
theorem test_decode_test : decodeThread 0 0 0b0011_000010_1_0_0_000_00000011_00000001_00000000000000000000000000001001#64 =
    some (.testLtS 0 0 iImm9) := by decide +kernel
/-- MEM LD.GLB.32, guarded by the negated p2 (R200). -/
theorem test_decode_load : decodeThread 0 0 0b0100_001010_0_1_1_010_00000111_00001010_00000000101010000000000001000000#64 =
    some (.load 0 0 0xA { pe := true, pn := true, pi := 2, dst := 7, a := 10, tail := 0x00A80040 }) := by decide +kernel
/-- ATM CAS of 64 bits (R203). -/
theorem test_decode_cas : decodeThread 0 0 0b0101_010101_0_0_0_000_00000110_00000100_00001000_00001010_0000000000000000#64 =
    some (.atomCas 0 0 true { dst := 6, a := 4, tail := 0x080A0000 }) := by decide +kernel
/-- FENCE, acquire and release (R204). -/
theorem test_decode_fence : decodeThread 0 0 0b0110_000000_0_0_0_000_00000000_00000000_00000000_00000000_0000000000001011#64 =
    some (.fence 0 0 { tail := 0xB }) := by decide +kernel
/-- MXI MXWAIT and WXI CVT (R205, R206, R233). -/
theorem test_decode_mxwait : decodeThread 0 0 0b0111_000001_0_0_0_000_00000000_00000001_00000000000000000000000000000101#64 =
    some (.mxwait 0 0 { a := 1, tail := 5 }) := by decide +kernel
theorem test_decode_cvt : decodeThread 0 0 0b1000_000010_0_0_0_000_00000011_00000001_00000010_00000100_0000000000000000#64 =
    some (.cvt 0 0 { dst := 3, a := 1, tail := 0x02040000 }) := by decide +kernel
/-- SYS SRD t3, sr_bid (R209). -/
theorem test_decode_srd : decodeThread 0 0 0b1001_000000_0_0_0_000_00000011_00000011_00000000000000000000000000000000#64 =
    some (.srd 0 0 { dst := 3, a := 3 }) := by decide +kernel
/-- Class 0xA is reserved, and so is INT operation 7 (R192, R193). -/
theorem test_decode_reserved : decodeThread 0 0 0xA000000000000000#64 = none ∧ decodeThread 0 0 0x11C0000000000000#64 = none := by
  decide +kernel

/-- Witnesses of the hypotheses of ThreadWordsRoundTrip: an instruction with a word, and a word with an instruction. -/
theorem test_threadWordsRoundTrip : threadWord (.add 1 2 iReg) = some ⟨1, 2, 1, 1, iReg⟩ ∧
    decodeThread 1 2 (wordOfInsn 1 1 iReg) = some (.add 1 2 iReg) := by decide +kernel

/-! ## Thread instructions -/

/-- 5 + 7, with the guard's lane alone, and −1 as an immediate. -/
theorem test_add : regAt (after (exec (.add 0 0 iReg) full)) 0 0 0 3 = 12 := by decide +kernel
theorem test_add_guarded : regAt (after (exec (.add 0 0 iGuard) full)) 0 0 1 3 = 0 := by decide +kernel
theorem test_sub_wraps : regAt (after (exec (.sub 0 0 iReg) full)) 0 0 0 3 = 0xFFFFFFFE := by decide +kernel
theorem test_mulhi_signed : regAt (after (exec (.mulhiS 0 0 { iImm9 with tail := 0xFFFFFFFF }) full)) 0 0 0 3 = 0xFFFFFFFF := by
  decide +kernel
theorem test_mulhi_unsigned : regAt (after (exec (.mulhiU 0 0 { iImm9 with tail := 0xFFFFFFFF }) full)) 0 0 0 3 = 4 := by
  decide +kernel
theorem test_clz : regAt (after (exec (.clz 0 0 iReg) full)) 0 0 0 3 = 29 := by decide +kernel
theorem test_shift_takes_low_bits : regAt (after (exec (.shl 0 0 { iImm9 with tail := 33 }) full)) 0 0 0 3 = 10 := by
  decide +kernel
theorem test_test_lt : predAt (after (exec (.testLtS 0 0 iImm9) full)) 0 0 0 3 = true := by decide +kernel
theorem test_nop_goes_on : pathsAt (after (exec (.nop 0 0 {}) full)) 0 0 = [⟨3, 0x1008⟩] := by decide +kernel
theorem test_branch_back : pathsAt (after (exec (.bra 0 0 { fmt := true, tail := 0xFFFFFFFB }) full)) 0 0 = [⟨3, 0xFD8⟩] := by
  decide +kernel

/-- Witnesses of `Ready` for the forms of the INT, FLT and PRD classes. -/
theorem test_integerOperations : (∃ x, Ready full 0 0 (formRI iReg) iReg x) ∧ (∃ x, Ready full 0 0 (formRI iImm9) iImm9 x) ∧
    (∃ x, Ready full 0 0 (formRI iGuard) iGuard x) ∧ (∃ x, Ready full 0 0 (formMov iReg) iReg x) ∧
    (∃ x, Ready full 0 0 (formR [iDst iReg, iA iReg, iB iReg, iC iReg]) iReg x) ∧
    (∃ x, Ready full 0 0 (formR [iDst iReg, iA iReg]) iReg x) ∧ (∃ x, Ready full 0 0 (formR [iDst iReg, iA iReg, iB iReg]) iReg x) ∧
    (∃ x, Ready full 0 0 { formR [iDst iReg, iA iReg, iB iReg] with far := true } iReg x) ∧
    ∃ x, Ready full 0 0 (formRI64 iPair) iPair x := by
  have h : ∀ {f i}, canIssue full 0 0 f i = true → ∃ x, Ready full 0 0 f i x := fun h => by
    obtain ⟨x, hx, -⟩ := ready_of h; exact ⟨x, hx⟩
  refine ⟨h ?_, h ?_, h ?_, h ?_, h ?_, h ?_, h ?_, h ?_, h ?_⟩ <;> decide +kernel

theorem test_floatOperations : (∃ x, Ready full 0 0 (formRI iReg) iReg x) ∧
    (∃ x, Ready full 0 0 (formR [iDst iReg, iA iReg, iB iReg, iC iReg]) iReg x) ∧
    ∃ x, Ready full 0 0 (formR [iDst iReg, iA iReg]) iReg x :=
  ⟨test_integerOperations.1, test_integerOperations.2.2.2.2.1, test_integerOperations.2.2.2.2.2.1⟩

theorem test_predicates : (∃ x, Ready full 0 0 (formTest iReg) iReg x) ∧ (∃ x, Ready full 0 0 (formTest iImm9) iImm9 x) ∧
    (∃ x, Ready full 0 0 (formR []) iReg x) ∧ (∃ x, Ready full 0 0 (formR [iDst iReg]) iReg x) ∧
    ∃ x, Ready full 0 0 { formR [iA iReg] with noDst := true } iReg x := by
  have h : ∀ {f i}, canIssue full 0 0 f i = true → ∃ x, Ready full 0 0 f i x := fun h => by
    obtain ⟨x, hx, -⟩ := ready_of h; exact ⟨x, hx⟩
  refine ⟨h ?_, h ?_, h ?_, h ?_, h ?_⟩ <;> decide +kernel

/-- A register pair at the highest aligned target below 48 bits, in t6. -/
def coreJump (lo hi : Word) : Core :=
  { coreA 0x1000 with groups := [(0, { grpA 0x1000 with regs := [(1, 5), (6, lo), (7, hi), (262, lo), (263, hi)] })] }

def iJump : Insn := { dst := 8, a := 6 }

theorem test_branches : (∃ x, Ready full 0 0 (formR []) {} x ∧ decide (runLanes x ≠ 0) = true) ∧
    (∃ x, Ready full 0 0 { r := false, im := true, regs := [] } { fmt := true, tail := 0x80000000 } x ∧
      decide (runLanes x ≠ 0) = true) ∧
    (∃ x, Ready full 0 0 { r := false, im := true, regs := [(8, 2)] } { fmt := true, dst := 8, tail := 0x7FFFFFFF } x ∧
      decide (runLanes x ≠ 0) = true) ∧
    ∃ x, Ready (withCore (coreJump 0xFFFFFFF8 0xFFFF)) 0 0 { regs := [(6, 2)], noDst := true } iJump x ∧
      decide (runLanes x ≠ 0 ∧ ∀ l ∈ x.act, regPair x.grp l 6 % 8 = 0 ∧ regPair x.grp l 6 < 2 ^ 48) = true := by
  refine ⟨ready_of ?_, ready_of ?_, ready_of ?_, ready_of ?_⟩ <;> decide +kernel

theorem test_exitThreads : ∃ x, Ready full 0 0 (formR []) {} x ∧
    decide (x.act ≠ [] ∧ x.grp.paths = [⟨3, 0x1000⟩]) = true := by
  refine ready_of ?_; decide +kernel

/-- A count of 32 for one group in t2 of both lanes, and one above it. -/
def coreBar (n : Word) : Core :=
  { coreA 0x1000 with groups := [(0, { grpA 0x1000 with regs := [(2, n), (258, n)] })] }

theorem test_barriersAndSyncg :
    (∃ x, Ready full 0 0 { formR [2] with noDst := true } { a := 2 } x ∧
      decide (x.act = [] ∨ BitVec.ofNat 32 (reg x.grp (lowest x) 2) &&& ~~~x.grp.ended &&& ~~~runLanes x = 0) = true) ∧
    (∃ x, Ready full 0 0 { formR [2] with noDst := true } { pe := true, pi := 5, a := 2 } x ∧ decide (x.act = []) = true) ∧
    (∃ x, Ready (withCore (coreBar 32)) 0 0 { formR [2] with noDst := true } { a := 2, tail := 15 } x ∧
      decide (x.act ≠ [] ∧ reg x.grp (lowest x) 2 ≤ 32 * x.blk.g ∧ mget? x.blk.bars 15 = none ∧ x.grp.barDone = 0 ∧
        x.grp.barWait = []) = true) := by
  refine ⟨ready_of ?_, ready_of ?_, ready_of ?_⟩ <;> decide +kernel

theorem test_specialRegisters : (∃ x, Ready full 0 0 { regs := [(3, 1)], ok := true } { dst := 3, a := 9 } x ∧
      decide (∀ l ∈ List.range 32, (specialOf full x l)[9]? = some (ownNode full)) = true) ∧
    ∃ x, Ready full 0 0 { regs := [(4, 2)], ok := true } { dst := 4, a := 10 } x ∧ decide (iA { dst := 4, a := 10 } = 10) = true := by
  refine ⟨ready_of ?_, ready_of ?_⟩ <;> decide +kernel

/-- 5 is t1 of lane 0: sr_tid, sr_gid, sr_gcount, sr_bid and the rest of R157. -/
theorem test_srd_bid : regAt (after (exec (.srd 0 0 { dst := 3, a := 3 }) full)) 0 0 0 3 = 5 := by decide +kernel

/-- Two ready groups: after slot 0 the core picks slot 1, and after slot 1 slot 0 again (R156). -/
def coreTwo (last : Nat) : Core :=
  { coreA 0x1000 with groups := [(0, grpA 0x1000), (1, grpA 0x1000)], lastSlot := last }

theorem test_pick_wraps : picked (withCore (coreTwo 0)) 0 1 = true ∧ picked (withCore (coreTwo 0)) 0 0 = false ∧
    picked (withCore (coreTwo 1)) 0 0 = true := by decide +kernel

theorem test_activeCtx : ∃ k, ctx? full 0 = some k ∧ k.state = 1 ∧ k.dying = false := ⟨ctxA, by decide +kernel⟩

/-- Memory that holds words of 64 bits from an address on. -/
def wordsAt (a : Nat) (ws : List Nat) : Map Byte := putBytes [] a (ws.flatMap (leBytes 8))

/-- The group with unit 0 of lane 0 poisoned: registers t0 and t1. -/
def coreBad : Core := { coreA 0x1000 with groups := [(0, { grpA 0x1000 with bad := [0] })] }

/-- The module with a word of a reserved class where the group runs. -/
def badWord : State := { full with mem := wordsAt 0x1000 [0xF000000000000000] }

/-- More witnesses of InstructionFaults: a word of a reserved class at the fetch address, and a poisoned source. -/
theorem test_reservedWordAndPoison :
    (memCheck badWord 0x1000 8 = none ∧ decodeThread 0 0 (BitVec.ofNat 64 (rdNum badWord 0x1000 8)) = none ∧
      (coreOf (after (exec (.add 0 0 iReg) badWord)) 0).groups.all (fun kv => kv.2.paths.isEmpty) = true) ∧
    ∃ x, issueOf (withCore coreBad) 0 0 iReg = some x ∧ fetchCheck (withCore coreBad) x.pc = none ∧
      formOk x.blk.n (formRI iReg) iReg = true ∧ operandsPending x.k 0 x.grp (formRI iReg) x.act iReg = false ∧
      operandsBad x.grp (formRI iReg) x.act iReg = true ∧ picked (withCore coreBad) 0 0 = true ∧
      asleep (withCore coreBad) x.pc 8 = false := by
  refine ⟨?_, _, rfl, ?_⟩ <;> decide +kernel

/-- Witnesses of InstructionFaults: an address at the end of the shared memories, and one above 48 bits; an immediate on
an operation without form I; a register above the allocation; a misaligned target, one of 2 ^ 48; a count of 33. -/
theorem test_instructionFaults :
    (∃ x, issueOf (withCore (coreA 0x0A0080000000)) 0 0 {} = some x ∧
      fetchCheck (withCore (coreA 0x0A0080000000)) x.pc = some .addressFault) ∧
    (∃ x, issueOf (withCore (coreA (2 ^ 48))) 0 0 {} = some x ∧ fetchCheck (withCore (coreA (2 ^ 48))) x.pc = some .addressFault) ∧
    formOk 32 (formRI { iReg with dst := 32 }) { iReg with dst := 32 } = false ∧
    formOk 32 (formTest { iReg with a := 32 }) { iReg with a := 32 } = false ∧
    10 < iA { a := 11 } ∧
    (∃ x, Ready (withCore (coreJump 4 0)) 0 0 { regs := [(6, 2)], noDst := true } iJump x ∧
      decide (∃ l ∈ x.act, regPair x.grp l 6 % 8 ≠ 0 ∨ 2 ^ 48 ≤ regPair x.grp l 6) = true) ∧
    (∃ x, Ready (withCore (coreJump 0 0x10000)) 0 0 { regs := [(6, 2)], noDst := true } iJump x ∧
      decide (∃ l ∈ x.act, regPair x.grp l 6 % 8 ≠ 0 ∨ 2 ^ 48 ≤ regPair x.grp l 6) = true) ∧
    (∃ x, Ready (withCore (coreBar 33)) 0 0 { formR [2] with noDst := true } { a := 2 } x ∧
      decide (x.act ≠ [] ∧ 32 * x.blk.g < reg x.grp (lowest x) 2) = true) := by
  refine ⟨⟨_, rfl, ?_⟩, ⟨_, rfl, ?_⟩, ?_, ?_, ?_, ready_of ?_, ready_of ?_, ready_of ?_⟩ <;> decide +kernel

/-! ## Accesses of threads -/

/-- Addresses in a global pair (t4, t5) and an offset in t2: `lo` and 4 above it. -/
def coreMem (lo hi : Word) : Core :=
  { coreA 0x1000 with
    groups := [(0, { grpA 0x1000 with
      regs := [(1, 5), (2, lo), (4, lo), (5, hi), (8, 9), (257, 6), (258, lo + 4), (260, lo + 4), (261, hi), (264, 9)] })] }

/-- LD.GLB.32 and ST.GLB.32 at (t4, t5) with offset −4, LD.SPM.32 at t2, ADD at (t4, t5), CAS at t2. -/
def iLoad : Insn := { dst := 3, a := 4, tail := 0x0000FFFC }
def iStore : Insn := { a := 4, tail := 0x0100FFFC }
def iLoadPad : Insn := { dst := 3, a := 2 }
def iAtom : Insn := { dst := 3, a := 4, tail := 0x01000400 }
def iCas : Insn := { dst := 3, a := 2, tail := 0x01080000 }

/-- `Reaches` as a Bool. -/
def reaches (s : State) (x : Issue) (w space : Nat) (kind : AccKind) (addr : Nat → Nat) : Bool :=
  decide (laneFault s x.c w space kind (x.act.map addr) = none) &&
    x.act.all fun l => !isCsr (placeAddr s x.c space (addr l))

/-- Witnesses of ThreadAccesses: the last word of HBM and the first of the scratchpad. -/
theorem test_threadAccesses :
    (∃ x, ReadyMem (withCore (coreMem 0xFFFFFFFC 0x2FF)) 0 0 (formLoad 0xA iLoad) iLoad x ∧
      reaches (withCore (coreMem 0xFFFFFFFC 0x2FF)) x 4 1 .load (fun l => rawAddr x.grp l 4 1 (memOff iLoad)) = true) ∧
    (∃ x, ReadyMem (withCore (coreMem 0 0)) 0 0 (formLoad 2 iLoadPad) iLoadPad x ∧
      reaches (withCore (coreMem 0 0)) x 4 0 .load (fun l => rawAddr x.grp l 2 0 0) = true) ∧
    (∃ x, ReadyMem (withCore (coreMem 0xFFFFFFFC 0x2FF)) 0 0 (formStore 0xA iStore) iStore x ∧
      reaches (withCore (coreMem 0xFFFFFFFC 0x2FF)) x 4 1 .store (fun l => rawAddr x.grp l 4 1 (memOff iStore)) = true) ∧
    (∃ x, ReadyMem (withCore (coreMem 0xFFFFFFF8 0x2FF)) 0 0 (formAtom 0 false iAtom) iAtom x ∧
      reaches (withCore (coreMem 0xFFFFFFF8 0x2FF)) x 4 1 .atom (fun l => rawAddr x.grp l 4 1 0) = true) ∧
    ∃ x, ReadyMem (withCore (coreMem 0 0)) 0 0 (formAtom 10 false iCas) iCas x ∧
      reaches (withCore (coreMem 0 0)) x 4 0 .atom (fun l => rawAddr x.grp l 2 0 0) = true := by
  refine ⟨readyMem_of ?_, readyMem_of ?_, readyMem_of ?_, readyMem_of ?_, readyMem_of ?_⟩ <;> decide +kernel

/-- A load leaves the registers and puts one access of two lanes in the tracker (R172, R174). -/
theorem test_load_tracked : ((coreOf (after (exec (.load 0 0 2 iLoadPad) (withCore (coreMem 0 0)))) 0).acc.map
    fun a => (a.n, a.width, a.lanes.map fun o => o.addr)) = [(0, 4, [0x080000000000, 0x080000000004])] := by decide +kernel

/-- Witnesses of AccessFaults: a word at an address of 4 k + 2, and one past the end of HBM. -/
theorem test_accessFaults :
    (∃ x, ReadyMem (withCore (coreMem 2 0)) 0 0 (formLoad 0xA iLoad) iLoad x ∧
      decide (∃ l ∈ x.act, rawAddr x.grp l 4 1 (memOff iLoad) % 4 ≠ 0) = true) ∧
    (∃ x, ReadyMem (withCore (coreMem 4 0x300)) 0 0 (formStore 0xA iStore) iStore x ∧
      decide ((∀ l ∈ x.act, rawAddr x.grp l 4 1 (memOff iStore) % 4 = 0) ∧
        ∃ l ∈ x.act, regionOf (placeAddr full 0 1 (rawAddr x.grp l 4 1 (memOff iStore))) = .unmapped ∧
          isLocal (placeAddr full 0 1 (rawAddr x.grp l 4 1 (memOff iStore))) = true) = true) ∧
    ∃ x, ReadyMem (withCore (coreMem 1 0)) 0 0 (formAtom 0 false iAtom) iAtom x ∧
      decide (∃ l ∈ x.act, rawAddr x.grp l 4 1 0 % 4 ≠ 0) = true := by
  refine ⟨readyMem_of ?_, readyMem_of ?_, readyMem_of ?_⟩ <;> decide +kernel

/-- FENCE of group scope, and of module scope with both parts and with its acquire part alone. -/
theorem test_fences : (∃ x, Ready full 0 0 (formFence { tail := 0x5800 }) { tail := 0x5800 } x ∧
      decide (x.grp.holds = [] ∧ x.act ≠ [] ∧ atmScope { tail := 0x5800 } < 4) = true) ∧
    (∃ x, Ready full 0 0 (formFence { tail := 0x9800 }) { tail := 0x9800 } x ∧
      decide (x.grp.holds = [] ∧ x.act ≠ [] ∧ 4 ≤ atmScope { tail := 0x9800 } ∧
        bitOf (atmOrd { tail := 0x9800 }) 1 = true) = true) ∧
    ∃ x, Ready full 0 0 (formFence { tail := 0x8800 }) { tail := 0x8800 } x ∧
      decide (x.grp.holds = [] ∧ x.act ≠ [] ∧ 4 ≤ atmScope { tail := 0x8800 } ∧ bitOf (atmOrd { tail := 0x8800 }) 1 = false ∧
        bitOf (atmOrd { tail := 0x8800 }) 0 = true ∧ atmSpace { tail := 0x8800 } = 0 ∧
        ∀ a ∈ x.k.acc, a.grp = 0 → a.kind = .store ∨ x.k.isn ≤ a.n) = true := by
  refine ⟨ready_of ?_, ready_of ?_, ready_of ?_⟩ <;> decide +kernel

/-- An access of one lane of group 0 at an address, with issue number `n`. -/
def accA (n : Nat) (kind : AccKind) (st : AccSt) (addr : Nat) : Acc :=
  { n := n, ins := n, grp := 0, blk := 0, ctx := 0, kind := kind, width := 4, lanes := [{ lane := 0, addr := addr, data := 7 }], dst := 3
    op := 0, bypass := false, acq := 0, waits := [], rel := 0, st := st, home := false, due := 0, csr := false }

/-- Core 0 with accesses in its tracker, and a pending release of module scope with issue number 9. -/
def coreAcc (as : List Acc) : Core :=
  { coreA 0x1000 with acc := as, isn := 10, fences := [{ n := 9, grp := 0, rel := 5, acq := false, range := none }] }

theorem test_trackerWaits :
    (findAcc (withCore (coreAcc [accA 3 .load .conflict 0x20000])) 0 3 = some (accA 3 .load .conflict 0x20000) ∧
      earlierHeld (coreAcc [accA 3 .load .conflict 0x20000]) 0 3 (accRngs 0 (accA 3 .load .conflict 0x20000)) false = false ∧
      blockBehind (coreAcc [accA 3 .load .conflict 0x20000]) (accA 3 .load .conflict 0x20000) = false) ∧
    earlierHeld (coreAcc [accA 2 .store .sent 0x20000, accA 3 .load .conflict 0x20000]) 0 3
      (accRngs 0 (accA 3 .load .conflict 0x20000)) false = true ∧
    releaseScope (coreAcc []) 9 = some 5 ∧ allReached (coreAcc []) 0 9 5 = true ∧
    allReached (coreAcc [accA 8 .store .sent 0x20000]) 0 9 5 = false := by decide +kernel

/-- HBM with 0x11223344 at 0x20000, and the same with the unit poisoned. -/
def memState (k : Core) (bad : List Nat) : State :=
  { withCore k with mem := [(0x20000, 0x44), (0x20001, 0x33), (0x20002, 0x22), (0x20003, 0x11)], bad := bad }

theorem test_loadReturns :
    let a := accA 3 .load .sent 0x20000
    let s := memState (coreAcc [a]) []
    let p := memState (coreAcc [a]) [0x20000]
    (findAcc s 0 3 = some a ∧ a.due = 0 ∧ (∀ o ∈ homeLanes a, laneReady s 0 a o = true) ∧ a.bad = false ∧ (∀ o ∈ homeLanes a, isBad s o.addr 4 = false)) ∧
    ((∀ o ∈ homeLanes a, laneReady p 0 a o = true) ∧ ∃ o ∈ homeLanes a, isBad p o.addr 4 = true) ∧
    regAt (after (exec (.loadReturn 0 3) s)) 0 0 0 3 = 0x11223344 := by decide +kernel

theorem test_storesPerformed :
    let a := accA 3 .store .sent 0x20000
    let s := memState (coreAcc [a]) []
    findAcc s 0 3 = some a ∧ a.home = false ∧ a.csr = false ∧ (∀ o ∈ homeLanes a, laneReady s 0 a o = true) ∧
      (∀ o ∈ homeLanes a, ∀ p ∈ homeLanes a, p = o) ∧ rdNum (after (exec (.writePerformed 0 3) s)) 0x20000 4 = 7 := by
  decide +kernel

theorem test_atomicsPerformed :
    let a := accA 3 .atom .sent 0x20000
    let s := memState (coreAcc [a]) []
    findAcc s 0 3 = some a ∧ a.lanes = [{ lane := 0, addr := 0x20000, data := 7 }] ∧ isLocal 0x20000 = true ∧
      (∀ o ∈ a.lanes, laneReady s 0 a o = true ∧ o.got = none) ∧ a.bad = false ∧ isBad s 0x20000 4 = false ∧ a.op ≤ 10 ∧
      rdNum (after (exec (.atomicPerformed 0 3) s)) 0x20000 4 = 0x1122334B ∧
      regAt (after (exec (.atomicPerformed 0 3) s)) 0 0 0 3 = 0x11223344 := by decide +kernel

/-! ## The press and the whey unit -/

/-- Words of 64 bits in memory from an address on. -/
def wordsIn (m : Map Byte) (a : Nat) (ws : List Nat) : Map Byte := putBytes m a (ws.flatMap (leBytes 8))

/-- A descriptor of one row of DF16 by one column with completion counter 3, and its words (R108). -/
def descA : List Nat := [0x220104, 0x1000000000, 0, 0x1000, 0, 0, 0, 0x43]
def wordsA : List Dword := descA.map fun w => BitVec.ofNat 64 w

/-- A chain of one WRITE of one binary32 value from offset 0 to offset 64 (R213). -/
def chainWordsA : List Nat := [1, 0x3000000000000000, 0, 0, 0x3000000000000040, 0, 0, 0, 0xA0000000, 0]
def chainA : Chain := chainOf (chainWordsA.map fun w => BitVec.ofNat 64 w)

/-- Core 0 with t1 as given in both lanes, and its scratchpad with the descriptor at 0x40 and the chain at 0x80. -/
def coreT (v : Word) : Core := { coreA 0x1000 with groups := [(0, { grpA 0x1000 with regs := [(1, v), (257, v)] })] }
def unitState (v : Word) : State :=
  { withCore (coreT v) with mem := wordsIn (wordsIn [] 0x080000000040 descA) 0x080000000080 chainWordsA }

def iIssue : Insn := { dst := 3, a := 1, tail := 2 }

/-- Witnesses of PressIssue: the descriptor, an offset that is no multiple of 64, one past the scratchpad, and a block of
zeros, which is no descriptor. -/
theorem test_pressIssue :
    (∃ x, Ready (unitState 0x40) 0 0 (formIssue iIssue) iIssue x ∧
      decide (x.grp.holds = [] ∧ x.act ≠ [] ∧ descPending x.k 0 (reg x.grp (lowest x) 1) 64 = false ∧
        mayTake x.k.press.stall 0 (128 - pressDepth x.k) = true ∧
        checkDesc (unitState 0x40) 0 (reg x.grp (lowest x) 1) = .ok wordsA) = true) ∧
    (∃ x, Ready (unitState 0x41) 0 0 (formIssue iIssue) iIssue x ∧
      decide (x.act ≠ [] ∧ reg x.grp (lowest x) 1 % 64 ≠ 0 ∧ descPending x.k 0 0x41 64 = false) = true) ∧
    (∃ x, Ready (unitState 0x1800000) 0 0 (formIssue iIssue) iIssue x ∧
      decide (x.act ≠ [] ∧ reg x.grp (lowest x) 1 % 64 = 0 ∧ 0x1800000 < reg x.grp (lowest x) 1 + 64 ∧ x.blk.ctx = 0) = true) ∧
    ∃ x, Ready (unitState 0x17FFFC0) 0 0 (formIssue iIssue) iIssue x ∧
      decide (x.act ≠ [] ∧ reg x.grp (lowest x) 1 + 64 ≤ 0x1800000 ∧ isBad (unitState 0x17FFFC0) (spadBase 0 + 0x17FFFC0) 64 = false ∧
        descBad (rdWords (unitState 0x17FFFC0) (spadBase 0 + 0x17FFFC0) 8) = true) = true := by
  refine ⟨ready_of ?_, ready_of ?_, ready_of ?_, ready_of ?_⟩ <;> decide +kernel

/-- The first descriptor gets sequence number 0 and pd. -/
theorem test_mxissue : (coreOf (after (exec (.mxissue 0 0 iIssue) (unitState 0x40))) 0).press.seq = 1 ∧
    predAt (after (exec (.mxissue 0 0 iIssue) (unitState 0x40))) 0 0 0 2 = true := by decide +kernel

/-- A CVT of 64 values of binary32 to DF16, and of none. -/
def iCvt : Insn := { dst := 3, a := 1, tail := 0x02043205 }
def coreCvt (n : Word) : Core :=
  { coreA 0x1000 with groups := [(0, { grpA 0x1000 with regs := [(1, 0x100), (2, 0x200), (4, n), (257, 0x100), (258, 0x200), (260, n)] })] }

theorem test_chainIssue :
    (∃ x, Ready (unitState 0x80) 0 0 (formIssue iIssue) iIssue x ∧
      decide (x.grp.holds = [] ∧ x.act ≠ [] ∧ mayTake x.k.whey.stall 0 (32 - wheyDepth x.k) = true ∧
        descPending x.k 0 (reg x.grp (lowest x) 1) 192 = false ∧
        checkChainAt (unitState 0x80) 0 (reg x.grp (lowest x) 1) = .ok chainA) = true) ∧
    (∃ x, Ready (unitState 0x81) 0 0 (formIssue iIssue) iIssue x ∧ decide (reg x.grp (lowest x) 1 % 64 ≠ 0) = true) ∧
    (∃ x, Ready (unitState 0x17FFFC0) 0 0 (formIssue iIssue) iIssue x ∧
      decide (checkChainAt (unitState 0x17FFFC0) 0 (reg x.grp (lowest x) 1) = .fault .addressFault) = true) ∧
    (∃ x, Ready (unitState 0xC0) 0 0 (formIssue iIssue) iIssue x ∧
      decide (checkChainAt (unitState 0xC0) 0 (reg x.grp (lowest x) 1) = .refuse .descInvalid) = true) ∧
    (∃ x, Ready (withCore (coreCvt 0)) 0 0 (formCvt iCvt) iCvt x ∧ decide (reg x.grp (lowest x) (iC iCvt) = 0) = true) ∧
    ∃ x, Ready (withCore (coreCvt 64)) 0 0 (formCvt iCvt) iCvt x ∧
      decide (x.grp.holds = [] ∧ x.act ≠ [] ∧ reg x.grp (lowest x) (iC iCvt) = 64 ∧ badScale 2 0 = false ∧
        (∀ o ∈ chainOps (cvtChain 3 2 0 5 0x100 0x200 64 0), opOk o = true) ∧
        checkChain (withCore (coreCvt 64)) 0 (cvtChain 3 2 0 5 0x100 0x200 64 0) false = .ok (cvtChain 3 2 0 5 0x100 0x200 64 0)) =
        true := by
  refine ⟨ready_of ?_, ready_of ?_, ready_of ?_, ready_of ?_, ready_of ?_, ready_of ?_⟩ <;> decide +kernel

/-- A counter of 5 has reached 5 and not 6; one of 0 has reached 0xFFFFFFFF and not 1 (R132). -/
theorem test_completionWaits : (∃ x, Ready full 0 0 { formR [iA iIssue] with noDst := true } iIssue x ∧ decide (x.act ≠ []) = true) ∧
    Reached [(2, 5)] 2 5 ∧ ¬ Reached [(2, 5)] 2 6 ∧ Reached [] 0 0xFFFFFFFF ∧ ¬ Reached [] 0 1 := by
  refine ⟨ready_of ?_, ?_, ?_, ?_, ?_⟩ <;> first | decide +kernel | (unfold Reached; decide +kernel)

/-- The descriptor as accepted, its tile, and a run of it. -/
def entryA : PressEntry := { words := wordsA, off := 0x40, seq := 4, n := 2, ctx := 0, blk := 0, launch := (1, 0), replay := false }
def runA : PressRun :=
  { members := [entryA], gather := false, fill := 0, wait := 0, pass := 0, entered := 0, ready := false, flight := []
    failed := [], rerun := none, dead := false, poison := false, nanSeen := [], hits := [0], tilePoison := false }
def pressState (p : Press) : State := withCore { coreA 0x1000 with press := p }

/-- A load for the head of the queue; a swap for the tile of a run's first pass; a row of a ready pass, also behind a run
whose last row has entered. -/
theorem test_pressTilesAndRows :
    (nextLoad { coreA 0x1000 with press := { queue := [entryA] } } = some (dTag wordsA 0, [entryA]) ∧
      pressRuns (pressState { queue := [entryA] }) 0 = true ∧
      entriesHeld { coreA 0x1000 with press := { queue := [entryA] } } 0 [entryA] = false) ∧
    (let p : Press := { runs := [runA], shadow := some ⟨dTag wordsA 0, true, false⟩ }
      let k := beginRun { coreA 0x1000 with press := p }
      dTag wordsA 0 = passTag runA 0 ∧ k.press.runs[leadRun k.press]? = some runA ∧ mayEnter k.press runA = true ∧
        k.press.shadow = p.shadow ∧ pressRuns (pressState p) 0 = true) ∧
    (let r := { runA with ready := true }
      let b := { r with entered := 1, flight := [(0, 0)] }
      let p : Press := { runs := [b, r] }
      let k := beginRun { coreA 0x1000 with press := p }
      (liveRows r)[0]? = some 0 ∧ k.press.runs[leadRun k.press]? = some r ∧ mayEnter k.press r = true ∧
        accBehind k.press 1 r = true ∧
        let k1 := beginRun { coreA 0x1000 with press := { runs := [r] } }
        k1.press.runs[leadRun k1.press]? = some r ∧ mayEnter k1.press r = true ∧ accBehind k1.press 0 r = false ∧
          entriesHeld k1 0 [entryA] = false) := by decide +kernel

/-- A row in the array whose checks pass with no disturbance, and fail with a disturbed cross sum. -/
def flying : State := pressState { runs := [{ runA with ready := true, entered := 1, flight := [(0, 0)] }] }
def crossErr : PressErr := { cross := 1 }

theorem test_oldestRow :
    OldestRow flying 0 0 { runA with ready := true, entered := 1, flight := [(0, 0)] } 0 0 [] 0 0 entryA :=
  ⟨by decide, by decide +kernel, by decide +kernel, rfl, rfl, by decide +kernel, rfl, rfl, rfl, by decide +kernel,
    Or.inr (by decide +kernel)⟩

theorem test_pressOutputs :
    ((∀ o ∈ rowOutputs flying 0 wordsA 0 0 {}, o.ok = true) ∧
      crossOk flying 0 wordsA 0 0 (rowOutputs flying 0 wordsA 0 0 {}) ({} : PressErr).cross = true) ∧
    crossOk flying 0 wordsA 0 0 (rowOutputs flying 0 wordsA 0 0 crossErr) crossErr.cross = false ∧
    (coreOf (after (exec (.pressOutputWrite 0 crossErr) flying)) 0).press.stat = 0x10 := by decide +kernel

/-- A failed row, all rows out of the array, and a run behind it none of whose rows has entered. -/
theorem test_pressReruns :
    let r := { runA with ready := true, entered := 1, failed := [(0, 0)] }
    let s := pressState { runs := [r, runA] }
    (coreOf s 0).press.runs[0]? = some r ∧ pressRuns s 0 = true ∧ r.entered = rowTotal r.members ∧
      r.pass + 1 = passCount r ∧ fresh runA = true ∧
      ((coreOf (after (exec (.pressRerun 0) s)) 0).press.runs.map (·.rerun)) = [some 0, none] := by decide +kernel

/-- A run that is done, one done with poison, and a chain that is done. -/
def wheyEntryA : WheyEntry :=
  { chain := { chainA with ccEn := true, ccIdx := 63 }, off := 0x80, seq := 6, n := 1, ctx := 0, blk := 0, launch := (1, 0)
    replay := false }
def wheyRunA (entered written : Nat) : WheyRun :=
  { e := wheyEntryA, entered := entered, written := written, part := [], ctr0 := [], events := 0, first := none
    mism := false, dead := none, late := [] }

def runOver : PressRun := { runA with ready := true, entered := 1 }

theorem test_completions :
    runDone { coreA 0x1000 with press := { runs := [runOver] } } = some runOver ∧
    runDone { coreA 0x1000 with press := { runs := [{ runA with poison := true }] } } = some { runA with poison := true } ∧
    chainDone { coreA 0x1000 with whey := { runs := [wheyRunA 1 1] } } = some (wheyRunA 1 1) ∧
    pressRuns (pressState { runs := [runOver] }) 0 = true ∧
    mget (coreOf (after (exec (.descriptorComplete 0) (pressState { runs := [runOver] }))) 0).press.cc 0 3 = 1 := by
  decide +kernel

/-- A coalescing head with coalescing on, also behind a run whose last row has entered, and a batch that gathers. -/
def entryCo : PressEntry := { entryA with words := (0x220504 :: descA.drop 1).map fun w => BitVec.ofNat 64 w }
theorem test_batches : dField entryCo.words 0 10 10 = 1 ∧ (0x80800258 : Word).getLsbD 31 = true ∧
    mayBegin { queue := [entryCo] } = true ∧ mayBegin { queue := [entryCo], runs := [runOver] } = true ∧
    pressRuns (pressState { queue := [entryCo] }) 0 = true ∧
    goesOn (exec (.batchOpen 0) (pressState { queue := [entryCo] })) = true := by decide +kernel

/-- FILL is 1 where 0 is written; a done run; an idle unit; a write that waits for the clock of a stopped press, and one
before a full queue of 8. -/
theorem test_pressAndWheyRegisters :
    pressRuns full 0 = true ∧ (coreOf (after (exec (.pressCoCtlWrite 0 0) full)) 0).press.coNext = some 0x10000 ∧
    runDone { coreA 0x1000 with press := { runs := [runOver] } } = some runOver ∧
    (coreOf full 0).press.queue = [] ∧ (coreOf full 0).press.runs = [] ∧ (coreOf full 0).press.writes = [] ∧
      (coreOf full 0).press.wake = false ∧ (coreOf full 0).press.shadow = none ∧ (coreOf full 0).whey.runs = [] ∧
      (coreOf full 0).whey.queue = [] ∧ (coreOf full 0).whey.writes = [] ∧
    mget (coreOf (after (exec (.cultureWrite 0 (some 63) 9) full)) 0).whey.ctr 0 63 = 9 := by decide +kernel

theorem test_pressWritesWait : pressRuns (pressState { stopped := true }) 0 = false ∧
    (coreOf (after (exec (.pressCcWrite 0 63 5 false) (pressState { stopped := true }))) 0).press.writes = [(some 63, 5)] ∧
    (coreOf (after (exec (.pressCcWrite 0 63 5 false)
      (pressState { stopped := true, writes := List.replicate 8 (none, 0) }))) 0).press.writes.length = 8 := by decide +kernel

def wheyState (w : Whey) : State := withCore { coreA 0x1000 with whey := w }

/-- The last chain goes on; the head of the queue begins alone, and behind a chain whose groups have all entered. -/
theorem test_chainGroupsEnter : pllDown full 4 = false ∧ 0 < groupTotal wheyEntryA.chain ∧
    chainAcross chainA = false ∧
    earlierHeld { coreA 0x1000 with whey := { runs := [wheyRunA 0 0] } } 0 1 (chainRngs wheyEntryA.chain) false = false ∧
    earlierHeld (beginChain { coreA 0x1000 with whey := { queue := [wheyEntryA] } }) 0 1 (chainRngs wheyEntryA.chain) false =
      false ∧
    (wheyRunA 1 0).entered = groupTotal (wheyRunA 1 0).e.chain := by
  decide +kernel

def wheyRunDual (m : Bool) : WheyRun :=
  { wheyRunA 1 0 with e := { wheyEntryA with chain := { wheyEntryA.chain with dual := true } }, mism := m }

theorem test_chainGroupsWritten :
    let s := wheyState { runs := [wheyRunA 1 0] }
    oldestChain (coreOf (landLate s 0) 0).whey = 0 ∧ (coreOf (landLate s 0) 0).whey.runs[0]? = some (wheyRunA 1 0) ∧
    groupBad (landLate s 0) 0 wheyEntryA.chain 0 0 1 = false ∧
    groupBad (wheyState { runs := [wheyRunDual true] }) 0 (wheyRunDual true).e.chain 0 0 1 = false ∧
    (coreOf (after (exec (.chainGroupWrite 0 true) (wheyState { runs := [wheyRunDual false] }))) 0).whey.stat = 0x20 ∧
    (coreOf (after (exec (.wheyGroupRerun 0 true) (wheyState { runs := [wheyRunDual true] }))) 0).whey.stat = 0xE0 := by
  decide +kernel

/-! ## Ladles, memory controllers, regeneration, phases and turning -/

/-- A ladle command of one row: operation, flags of its first word, source, destination and length (R298). -/
def ladleA (op flags src dst len : Nat) : LadleCmd :=
  { words := [1 + 256 * op + flags, src, dst, len, 0, 0, 0, 0].map fun w => BitVec.ofNat 64 w, src := (0, 0), order := 0, prev := none, ctx := 0
    core := some (0, 0), cmd := none, n := 0 }
def runOf (l : LadleCmd) : LadleRun := { cmd := l, done := [], due := [], fail := none, bytes := 0 }
def ladleState (l : LadleCmd) : State := { full with ladles := [(15, runOf l)] }

theorem test_ladleSubmission : (coreOf (withCore { coreA 0 with ladleQ := List.replicate 15 (ladleA 1 0 0 0 64) }) 0).ladleQ.length < 16 ∧
    16 ≤ (coreOf (withCore { coreA 0 with ladleQ := List.replicate 16 (ladleA 1 0 0 0 64) }) 0).ladleQ.length ∧
    (coreOf (after (exec (.ladleSubmit 0 47 0) full)) 0).ladleQ.length = 1 ∧
    mayTake [] 47 (ladleRoom (coreOf full 0)) = true ∧ mayTake [46] 47 1 = false ∧ mayTake [47, 46] 47 1 = true := by decide +kernel

/-- A ladle with PRIO 0 submitted after one of PRIO 1, both ready. -/
theorem test_ladleAssignment :
    let lo := ladleA 1 0x4000 0 0x20000 64
    let hi := { ladleA 1 0 0 0x30000 64 with order := 1 }
    let s := withCore { coreA 0 with ladleQ := [lo, hi] }
    mget? s.ladles 15 = none ∧ (∃ x ∈ queuedLadles s, ladleReady s x = true) ∧
      (mget? (after (exec (.ladleCommandStart 15) s)).ladles 15).map (·.cmd) = some hi := by decide +kernel

/-- Block 1 of a row that begins 4 bytes before a block ends at the last block of HBM. -/
theorem test_blockDue : BlockDue (ladleState (ladleA 1 0 0x55 0x02FFFFFFFFBC 68)) 15 1 (runOf (ladleA 1 0 0x55 0x02FFFFFFFFBC 68))
    0x02FFFFFFFFC0 0x59 4 64 where
  ladle := by decide
  hub := by decide +kernel
  runs := by decide +kernel
  good := rfl
  todo := by decide
  idle := by decide
  moves := by decide +kernel
  place := by decide +kernel
  home := by decide +kernel
  served := by decide +kernel
  awake := by decide +kernel
  open_ := by decide +kernel
  early := fun _ h => by cases (h : some (0, 0) = some _); decide +kernel

theorem test_ladleBlocks : lOp (ladleA 1 0 0x55 0x20000 64) = 1 ∧
    (let l := ladleA 0 0 0x30000 0x20000 64
     let s := ladleState l
     lOp l = 0 ∧ blockPlace s l 0 = some (0x20000, 0x30000, 0, 64) ∧ isLocal 0x30000 = true ∧ memCheck s 0x30000 64 = none ∧
      asleep s 0x30000 64 = false ∧ isBad s 0x30000 64 = false ∧ isBad { s with bad := [0x30008] } 0x30000 64 = true) ∧
    rdByte (after (exec (.ladleBlock 15 0) (ladleState (ladleA 1 0 0x55 0x20000 64)))) 0x20008 = 0x55 := by decide +kernel

theorem test_ladleCompletion :
    let l := ladleA 1 0x2000 0 0x20000 64
    let l := { l with words := [0x2101, 0, 0x20000, 64, 0, 0, 0x10002, 9].map fun w => BitVec.ofNat 64 w }
    let r := { runOf l with done := [0], bytes := 64 }
    let f : Fence := { gen := 1, value := 8, status := .ok, firstErr := .ok, owner := 0, waiters := 0, refs := 0 }
    let s := { ladleState l with ladles := [(15, r)], obj := { full.obj with fences := [(2, f)] } }
    r.due = [] ∧ r.done.length = ladleBlocks s r.cmd ∧ r.cmd.core.isSome = true ∧ ctx? s r.cmd.ctx = some ctxA ∧
      lFenceEn l = true ∧ fence? s (fld (lWord l 6) 15 0) = some f ∧ f.gen = BitVec.ofNat 8 (fld (lWord l 6) 23 16) ∧
      f.value.toNat < lWord l 7 ∧ (fence? (after (exec (.ladleComplete 15) s)) 2).map (·.value) = some 9 := by decide +kernel

/-- A ladle with NVMe command 0 under way since tick 5, in pieces of 512 bytes; a drive with one namespace on link 0. -/
def nvmeRun (l : LadleCmd) : LadleRun := { runOf l with nv := [(0, 5)], nvNext := 1, chunk := 512 }
def nvmeNsA : NvmeNs := { nsid := 1, lbaSize := 512, lbas := 8, metadata := false }
def nvmeState (r : LadleRun) : State :=
  { full with ladles := [(15, r)], pcies := [(0, { nvme := true, ns := [nvmeNsA], perstLow := false })] }
def toDrive : LadleRun := nvmeRun (ladleA 3 0 0x20000 0 64)
def fromDrive : LadleRun := nvmeRun (ladleA 2 0 0 0x20000 1)

theorem test_nvmeWaits : NvmeWaits (nvmeState toDrive) 15 0 toDrive 5 ∧ NvmeWaits (nvmeState fromDrive) 15 0 fromDrive 5 :=
  ⟨⟨by decide, by decide +kernel, by decide +kernel, by decide +kernel, by decide, rfl⟩,
    ⟨by decide, by decide +kernel, by decide +kernel, by decide +kernel, by decide, rfl⟩⟩

/-- A write to a drive whose block is not yet read, and is; the time after which it fails; a read of one byte. -/
theorem test_nvmeCommands :
    (lOp toDrive.cmd = 3 ∧ nvmeNs (nvmeState toDrive) (lNsid toDrive.cmd) = some nvmeNsA ∧
      nvmeSource (nvmeState toDrive) toDrive (nvmePiece toDrive 0) = none ∧
      (nvmeSource (nvmeState toDrive) { toDrive with data := [(0, padB 64 [7])] } (nvmePiece toDrive 0)).isSome = true) ∧
    (full.fab.tmo.toNat ≤ (now ({ full with refCnt := 1000005 } : State) + 2 ^ 64 - 5) % 2 ^ 64 ∧
      (now ({ full with refCnt := 1000004 } : State) + 2 ^ 64 - 5) % 2 ^ 64 < full.fab.tmo.toNat) ∧
    (lOp fromDrive.cmd = 2 ∧ fromDrive.wait = [] ∧ (nvmePiece fromDrive 0).2.2 = 1 ∧
      rowKey (nvmeState fromDrive) (lDst fromDrive.cmd) (lDstStride fromDrive.cmd) (nvmePiece fromDrive 0).1 +
        (nvmePiece fromDrive 0).2.1 = 0x20000 ∧ isLocal 0x20000 = true ∧ memCheck (nvmeState fromDrive) 0x20000 1 = none ∧
      rdByte (after (exec (.nvmeCommandComplete 15 { cmd := 0, result := .ok [9] }) (nvmeState fromDrive))) 0x20000 = 9) ∧
    (let s : State := { State.reset with start := { stage := 3 } }
     s.start.warm = false ∧ s.start.stage = 3 ∧ (mget s.pcies {} 3).down = false ∧ (mget s.pcies {} 3).nvme = false) := by
  decide +kernel

theorem test_nvmeCommands_open : Open (nvmeState fromDrive) 0x20000 1 := open_of (by decide +kernel) (by decide)

/-- A table of one record of zeros at 0x40000, due at step 6; and record 0 with an assisted check that fails. -/
def qwState (q : Regen) : State := { full with qw := { q with tblBase := 0x40000, tblCnt := 1 } }

theorem test_regeneration_open : Open (qwState { due := [6] }) 0x40000 64 ∧ Open (qwState { checks := [(0, (true, 1))] }) 0x40000 64 :=
  ⟨open_of (by decide +kernel) (by decide), open_of (by decide +kernel) (by decide)⟩

theorem test_memoryControllers : (full.memCtl.parkEn = true ∧ full.start.caveUp.getLsbD 15 = true ∧ full.memCtl.wakes.getLsbD 15 = false) ∧
    ({ full with memCtl := { full.memCtl with wakes := 0x8000 } } : State).memCtl.wakes.getLsbD 15 = true ∧
    (regionOf 0 = .hbm ∧ regionOf 0x07FFFFFFFFC0 = .cave ∧ full.memCtl.scrubEn = true ∧ inService full 0 = true ∧
      inService full 0x07FFFFFFFFC0 = true) ∧ (after (exec (.cavePark 15) full)).memCtl.parked = 0x8000 := by decide +kernel

theorem test_regeneration :
    (let s := qwState { due := [6] }
     fullService s = true ∧ s.qw.checks = [] ∧ dutyMode s 6 = 0 ∧ fld s.qw.tblCnt.toNat 12 0 = 1 ∧ (qwRec s 0).shapeOk = false ∧
      s.turn.held = [] ∧ rdNum (after (exec .qwRegenerate s)) 0x4003B 1 = 2) ∧
    mget? (qwState { checks := [(0, (false, 0))] }).qw.checks 0 = some (false, 0) ∧
    rdNum (after (exec (.regenCheckDone 0) (qwState { checks := [(0, (false, 0))] }))) 0x4003B 1 = 3 ∧
    mget? (qwState { checks := [(0, (true, 1))] }).qw.checks 0 = some (true, 1) ∧
    bankPending (qwState { checks := [(0, (true, 1))] }) (qwRec (qwState {}) 0) = false := by decide +kernel

/-- Core 0 in step 6, phase 1, and a log in the cave with the record of step 6. -/
def phaseState (p : Phase) : State :=
  { withCore { coreA 0x1000 with phase := p } with
    turn := { State.reset.turn with rlogBase := 0x040000000000 }
    mem := putBytes [] (0x040000000000 + 6 * 0x4000000) (leBytes 8 0x60000) }

theorem test_phaseMarks :
    (let s := phaseState {}
     let k := coreOf s 0
     k.phase.held = none ∧ (∀ e ∈ wheyHeld k, isJobCtx s e.ctx = false) ∧ remapDue k = false ∧ k.test = none ∧ k.phase.cur = none ∧
      fld (0x60001 : Dword).toNat 2 0 = 1 ∧ turnHolds s 6 = false ∧
      (coreOf (after (exec (.phaseSet 0 0x60001) s)) 0).phase.cur = some (6, 1)) ∧
    (let s := phaseState { cur := some (6, 1) }
     fld (0x60002 : Dword).toNat 2 0 ≠ 7 ∧ fld (0x60002 : Dword).toNat 63 16 = 6 ∧ fld (0x80002 : Dword).toNat 63 16 ≠ 6 ∧
      fld (0x80002 : Dword).toNat 63 16 ≠ 7 ∧ rlogHas s 6 = true ∧ rlogComplete s 6 = false ∧
      0x22000 + 32 * (rlogCount s 6 + 1) ≤ rlogSize s ∧ rlogCount (after (exec (.shardPtr 0 9) s)) 6 = 1) := by decide +kernel

/-- Marks that break the order of R421 or have the reserved phase 7 each set BAD_MARK. -/
theorem test_phaseMarks_bad :
    ∀ x ∈ [(({} : Phase), (0x60007 : Dword)), ({}, 0x60002), ({ cur := some (6, 1) }, 0x70002), ({ cur := some (6, 1) }, 0x80001),
        ({ cur := some (6, 1) }, 0x60007)],
      (after (exec (.phaseSet 0 x.2) (phaseState x.1))).turn.stat.getLsbD 10 = true := by decide +kernel

/-- Every core has performed its FORWARD mark of step 7; turnings due and not due. -/
def markedState (ctl : Word) : State :=
  { full with
    cores := (List.range 256).map fun c => (c, { phase := { cur := some (7, 1), fwd := some 7 } })
    obj := { full.obj with job := some (7, 0, 0) }, turn := { State.reset.turn with ctl := ctl } }

theorem test_turningPoints :
    (nextPoint (markedState 0x00070000) = some 6 ∧ turnDue (markedState 0x00070000) 6 = false) ∧
    (nextPoint (markedState 0x80070000) = some 6 ∧ turnDue (markedState 0x80070000) 6 = true ∧
      (markedState 0x80070000).turn.run = none ∧
      anyAsleep (markedState 0x80070000) (slotParts (markedState 0x80070000) (lastSlot (markedState 0x80070000))) = false) := by
  decide +kernel

/-- A table of one region of two granules at 0x100000, slots at 0x04_4000_0000 in the cave, granule 0 in hand. -/
def turnState : State :=
  { full with
    mem := putBytes [] 0x40000 (leBytes 8 0x100000 ++ leBytes 8 0x80000)
    turn := { State.reset.turn with
      tblBase := 0x40000, tblCnt := 1, slot0 := 0x040040000000, slot1 := 0x040080000000
      run := some { id := 0, step := 6, slot := 0, total := 2, done := [], urgent := [], due := 0, mfail := false }
      mirror := [{ id := 0, step := 6, slot := 1, due := 0 }] } }

theorem test_turningCopies : turnState.memOk ∧
    (let r : TurnRun := { id := 0, step := 6, slot := 0, total := 2, done := [], urgent := [], due := 0, mfail := false }
     turnState.turn.run = some r ∧ r.todo = [] ∧ turnLadle turnState = true ∧ turnState.hoop.steps = [] ∧ 0 < r.total ∧ 0 ∈ granuleOrder turnState r ∧ r.done.length + 1 < r.total ∧
      granuleAddr (turnRegions turnState) 0 = some 0x100000 ∧ isBad turnState 0x100000 0x40000 = false) ∧
    turnState.turn.held = [] ∧ turnState.turn.mirror.find? (fun m => m.due == 0) = some { id := 0, step := 6, slot := 1, due := 0 } ∧ turnState.memCtl.parked = 0 ∧
    (after (exec .mirrorComplete turnState)).turn.stat.getLsbD 12 = false := by decide +kernel

theorem test_turningCopies_awake : asleep turnState 0x100000 0x40000 = false ∧
    asleep turnState (slotGranule turnState 0 0) 0x40000 = false := by decide +kernel

/-- A due turning point that an earlier turning still holds (R462). -/
def markedBusy : State := { markedState 0x80070000 with turn := { (markedState 0x80070000).turn with run := turnState.turn.run } }

theorem test_turningPoint_held : nextPoint markedBusy = some 6 ∧ turnDue markedBusy 6 = true ∧
    (after (exec .turningPoint markedBusy)).turn.stat.getLsbD 11 = true := by decide +kernel

/-- A segment directory at 0x40000 with a valid record of segment 255 at offset 0x2000, and none of segment 0. -/
def segState : State :=
  { withCore { coreA 0x1000 with phase := { segBuf := 0x40000 } } with
    mem := putBytes [] (0x40000 + 16 * 255) (leBytes 8 0x2000 ++ leBytes 8 1) }

theorem test_segmentReplays : segBusy { coreA 0 with phase := { segLeft := some (0, 0, 1) } } = true ∧ segBusy (coreOf segState 0) = false ∧
    anyAsleep segState (segParts segState 0 0) = false ∧ anyAsleep segState (segParts segState 0 255) = false ∧
    bitOf (rdNum segState (segBase (coreOf segState 0) + 8) 8) 0 = false ∧
    bitOf (rdNum segState (segBase (coreOf segState 0) + 16 * 255 + 8) 8) 0 = true ∧
    (coreOf (after (exec (.segReplay 0 0) segState)) 0).phase.segLast = 2 := by decide +kernel

/-- A valid segment record at offset 0x2000 whose snapshot gives the seed 0x1234 and lane 63 the counter 9. -/
def segValid : State :=
  { segState with
    mem := putBytes (putBytes (putBytes segState.mem (0x42000 - 520) (leBytes 8 0x1234)) (0x42000 - 8) (leBytes 8 9)) 0x41FF0 (leBytes 8 7) }

theorem test_segmentReplays_loads :
    let k := coreOf (after (exec (.segReplay 0 255) segValid)) 0
    segBusy (coreOf segValid 0) = false ∧ anyAsleep segValid (segParts segValid 0 255) = false ∧
      k.phase.segLastId = 255 ∧ k.whey.rseed = 0x1234 ∧ mget k.whey.rctr 0 63 = 9 ∧ mget k.whey.rctr 0 62 = 7 := by decide +kernel

/-- Core 255 at its held mark with RETIRE_PEND of the press: physical core 64 of vat 3 is the lowest spare. -/
def retiring : State :=
  { full with cores := [(255, { phase := { cur := some (6, 1), held := some 0x60002 }, press := { stat := 0x40 } })] }

theorem test_coreRemap : (coreOf retiring 255).phase.held.isSome = true ∧ remapDue (coreOf retiring 255) = true ∧
    quiet (coreOf retiring 255) = true ∧ spareCore retiring 3 = some 64 ∧ retirePend (coreOf retiring 255) = true ∧
    physOf (after (exec (.coreRemap 255) retiring)) 255 = 262 ∧
    (let s : State := { retiring with vatFail := [262, 263] }
     spareCore s 3 = none ∧ testOpen s 3 = false ∧ (after (exec (.coreRemap 255) s)).triage.unfit = true) := by decide +kernel

/-! ## Ruong, requests of other modules, and the coordinator pair -/

/-- The module as node 0 in job 7 with node 1 and node 2, nodes 0 and 1 the coordinators, every port ACTIVE. -/
def netState : State :=
  { full with
    ports := (List.range 12).map fun p => (p, { state := 5 })
    obj := { full.obj with job := some (7, 0, 0), members := [(0, 1, 0), (1, 0, 1), (2, 1, 2)] }
    turn := { State.reset.turn with coordCtl := 0x0000000100010000 } }

/-- As `netState`, with packets in the buffer of virtual channel `vc` of port 11. -/
def heard (vc : Nat) (ks : List Packet) (s : State := netState) : State :=
  { s with ports := mput s.ports 11 { state := 5, ingress := ks.map fun k => { pkt := k, vc := vc, tick := 0 } } }

/-- A packet of node 2 in job 7 to this module. -/
def pkt (opc tc : Nat) (body : Bytes) : Packet := { dst := 0, src := 2, job := 7, opc := opc, tc := tc, tag := 9, body := body }

/-- Flits of a write: with SEQ 0 and 1, of KIND FAILOVER from port 8 joined to this one's pair, TRAIN, and one with a broken CRC. -/
def flitA (kind seq orig : Nat) : RawFlit := { bytes := flitB (seq * 2 ^ 38 + kind * 2 ^ 34 + 3 * 2 ^ 29 + orig * 4) (pkt 1 0 []) }
def flitBroken : RawFlit := { bytes := (flitA 1 0 0).bytes.take 255 ++ [0x5A] }

theorem test_flitReceipt : InSequence netState 11 1 (flitA 1 0 0) :=
  ⟨by decide, by decide +kernel, by decide +kernel, by decide +kernel, by decide +kernel, by decide +kernel, by decide +kernel,
    by decide +kernel⟩

theorem test_flitReceipt_other : flitOk (portOf netState 11) (flitA 1 1 0) = true ∧ flitKind (flitA 1 1 0) = 1 ∧
    bitOf (flitLink (flitA 1 1 0)) 50 = false ∧ flitSeq (flitA 1 1 0) ≠ (portOf netState 11).rxSeq ∧
    receives netState 11 = true ∧ flitOk (portOf netState 11) flitBroken = false ∧ (portOf netState 11).disc = false := by decide +kernel

/-- A flit out of sequence and one with a broken CRC make the receiver ask for the flit it lacks (R338, R343). -/
theorem test_flitReceipt_asks : ∀ f ∈ [flitA 1 1 0, flitBroken],
    ∃ b ∈ (after (exec (.flitReceive 11 f) netState)).out.getLast?, bitOf (wordAt (match b with | .flit _ x => x | _ => []) 0) 50 = true := by
  decide +kernel

theorem test_linkFailures : InSequence netState 11 2 (flitA 2 0 8) ∧ origOk 11 8 = true ∧ joinedPort 8 = 10 ∧
    fld (flitLink (flitA 2 0 8)) 5 2 = 8 ∧ subMod 12 (fld (flitLink (flitA 2 0 8)) 17 6) ((portOf netState 10).last + 1) < 1024 :=
  ⟨⟨by decide, by decide +kernel, by decide +kernel, by decide +kernel, by decide +kernel, by decide +kernel, by decide +kernel,
    by decide +kernel⟩, by decide +kernel, by decide, by decide +kernel, by decide +kernel⟩

/-- A port whose oldest flit has been sent again `n` times. -/
def retrying (n : Nat) : State :=
  { netState with
    ports := mput netState.ports 11 { state := 5, retry := [{ pkt := pkt 1 0 [], vc := 3, seq := 0, orig := none, resends := n }] } }

theorem test_linkFailures_timeout : flitOk (portOf netState 11) (flitA 3 0 0) = true ∧ flitKind (flitA 3 0 0) = 3 ∧
    (∀ f ∈ (portOf (retrying 7) 11).retry, f.resends < 8) ∧
    (tally (retrying 7) (countKey 4 11) (portOf (retrying 7) 11).retry.length 65536).2 = false ∧
    (∃ f ∈ (portOf (retrying 8) 11).retry, 8 ≤ f.resends) ∧
    (portOf (after (exec (.linkRetryTimeout 11) (retrying 8))) 11).state = 2 := by
  decide +kernel

/-- A transit packet to node 3, one held too long, an injected packet to node 3, and one to a node outside the torus. -/
def transit : Packet := { pkt 1 0 [] with dst := 3 }

theorem test_packetsMove :
    (let s := heard 3 [transit]
     vcHead s 11 3 = some { pkt := transit, vc := 3, tick := 0 } ∧ isTransit s transit = true ∧ inTorus s (physNode s 3) = true ∧
      nodeDead s (physNode s 3) = false ∧ (hopOf s transit).isSome = true ∧
      s.fab.tmo.toNat / 64 < subMod 64 (now { s with refCnt := 15626 }) 0 ∧
      (hopOf s transit).map (fun h => (h.1, h.2.1, (egressPort s (dirCode h.1 h.2.1) transit).isSome)) = some (0, true, true) ∧
      (egressPort s (dirCode 0 true) transit).map (fun e => canLeave s e 0) = some true ∧
      nodeDead { s with fab := { s.fab with fmap := [(3, 0x80)] } } (physNode s 3) = true) ∧
    (let s := { netState with fab := { netState.fab with inj := [{ transit with src := 0 }] } }
     s.fab.inj.find? (mayInject s) = some { transit with src := 0 } ∧ routeOf s 3 = some (0, 0)) ∧
    routeOf netState 31 = none := by decide +kernel

/-- The hub and the rind run; behind a packet that is home stands the transit packet that is held too long. -/
theorem test_clocksRun : RindRuns netState ∧
    (let s := { heard 3 [pkt 1 0 [], transit] with refCnt := 15626 }
     oldestTransit s 11 3 = some { pkt := transit, vc := 3, tick := 0 } ∧ s.fab.tmo.toNat / 64 < subMod 64 (now s) 0 ∧
       fld (after (exec (.transitHoldExpiry 11 3) s)).fab.drop.toNat 63 32 = 1) := by decide +kernel

def changeA : EpochChange := { fmap := [(3, 0x80)], aliases := [], epoch := 9, ring := some (1, 2, 3) }

theorem test_epochChanges :
    (let s := { netState with fab := { netState.fab with drain := some changeA } }
     drained s = true ∧ (after (exec .routeTableLoad s)).fab.epoch = 9) ∧
    (let s := { netState with fab := { netState.fab with drain := some changeA, tags := [(9, ⟨.client, 2, 0, none⟩)] } }
     drained s = false) ∧
    (let s := { netState with fab := { netState.fab with cacheWait := true } }
     dutyMode s 3 ≠ 2 ∧ s.fab.cacheWait = true ∧ CacheSource.client ≠ cacheSource s) := by decide +kernel

/-- A client whose cache is posted with fence 2, signalled at 9, and detour routing in client-assisted mode. -/
def cacheState (value : Dword) : State :=
  { netState with
    start := { full.start with cfg := some { cfgA with duty := 0x80 } }
    fab := { netState.fab with cacheWait := true }
    mem := [(0x20004, 1)]
    obj := { netState.obj with
      sess := [(0, { gen := 1, client := 0, rights := 7, renewed := 0, admin := 9, ticket := [], qps := [] })]
      fences := [(2, { gen := 1, value := value, status := .ok, firstErr := .ok, owner := 0, waiters := 0, refs := 0 })]
      mems := [(3, { state := 1, gen := 1, base := 0x20000, owner := 0, rdma := 0, place := 0, len := 2, refs := 0, tenant := 0 })]
      posts := [{ fn := 3, obj := 3, off := 0, fence := BitVec.ofNat 32 (handleOf .fence 1 2), base := 8 }] } }

theorem test_epochChanges_client : dutyMode (cacheState 9) 3 = 2 ∧ controllerGone (cacheState 9) = false ∧
    postDone (cacheState 9) 3 = true ∧ postDone (cacheState 8) 3 = false ∧ inTorus (cacheState 9) 1 = true ∧
    clientEntry (cacheState 9) 1 ≠ routeEntry (cacheState 9) 1 := by decide +kernel

/-- The neighbour that port 11 (−Z) has to meet, and another one. -/
def nbrA (good : Bool) : TrainInfo :=
  { lowOk := true, highOk := good, reversed := false, polinv := 0
    nbr := { node := 0xC00, x := 0, y := 0, z := if good then 3 else 2, port := 9, job := 0, epoch := 0, mode := 0 } }
def training (st : Nat) (tries : Nat) : State :=
  { full with pow := { full.pow with rise := true, rails := 6 }, ports := [(11, { state := st, tries := tries })], refCnt := 50000001 }

theorem test_linkTraining : (portOf (training 1 0) 11).en = true ∧ driving (training 1 0) = true ∧ driving { full with start := { full.start with mode := .off } } = false ∧ nbrOk (training 4 0) 11 (nbrA true) = true ∧
    (portOf (training 4 0) 11).txq = [] ∧ nbrOk (training 4 0) 11 (nbrA false) = false ∧
    trainLimit (portOf (training 2 2) 11) < subMod 64 (now (training 2 2)) (portOf (training 2 2) 11).since ∧
    (portOf (after (exec (.trainLimitExpiry 11) (training 2 2))) 11).state = 7 ∧
    (portOf ({ full with ports := [(11, { en := false })] } : State) 11).en = false := by decide +kernel

/-- A WRITE of the last byte of its three blocks, a READ_REQ, an ADD of 8 bytes; the same from a node outside the job. -/
def writeA : Packet := { pkt 1 0 (leBytes 24 (2 ^ 191) ++ List.replicate 192 0x5A) with addr := 0x20000 }
def readA : Packet := { pkt 2 0 [] with addr := 0x2003F, len := 129 }
def atomA : Packet := { pkt 4 0 (leBytes 24 0 ++ leBytes 8 5) with addr := 0x20000, aux := 1 }

theorem request_of {s : State} {p vc opc : Nat} {k : Packet} (h : (decide (p < 12) && !pllDown s 1 && decide (homeHead s p vc = some k) &&
    decide (k.opc = opc) && admitted s k && decide (k.tc ≠ 2) && !behindHeld s k && (!k.rel || decide (earlierWrites s p vc k = []))) = true) :
    Request s p vc opc k := by
  simp only [Bool.and_eq_true, decide_eq_true_eq, Bool.not_eq_true', Bool.or_eq_true] at h
  obtain ⟨⟨⟨⟨⟨⟨⟨h1, h2⟩, h3⟩, h4⟩, h5⟩, h6⟩, h7⟩, h8⟩ := h
  exact ⟨h1, h2, h3, h4, h5, h6, h7, h8⟩

theorem test_remoteRequests :
    (Request (heard 3 [writeA]) 11 3 1 writeA ∧ decide (∀ b ∈ maskBlocks writeA, memCheck (heard 3 [writeA]) (0x20000 + 64 * b) 64 = none ∧
      asleep (heard 3 [writeA]) (0x20000 + 64 * b) 64 = false ∧ writeHeld (heard 3 [writeA]) (0x20000 + 64 * b) 64 = false) = true) ∧
    (Request (heard 3 [readA]) 11 3 2 readA ∧ decide (0 < readA.len ∧ readA.addr % 64 + readA.len ≤ 192 ∧
      memCheck (heard 3 [readA]) readA.addr readA.len = none ∧ isBad (heard 3 [readA]) readA.addr readA.len = false) = true) ∧
    (Request (heard 3 [atomA]) 11 3 4 atomA ∧ decide (atomA.aux / 2 ≤ 10 ∧ atomA.aux ≠ 3 ∧ memCheck (heard 3 [atomA]) 0x20000 8 = none ∧
      writeHeld (heard 3 [atomA]) 0x20000 8 = false ∧ rdNum (after (exec (.atomic 11 3) (heard 3 [atomA]))) 0x20000 8 = 5) = true) ∧
    (let s := { netState with fab := { netState.fab with held := [(writeA, [])] } }
     decide (s.fab.held[0]? = some (writeA, []) ∧ writeA.opc = 1 ∧ ∀ kv ∈ s.ports, ∀ i ∈ kv.2.ingress, i.pkt ∉ ([] : List Packet)) = true) := by
  refine ⟨⟨request_of ?_, ?_⟩, ⟨request_of ?_, ?_⟩, ⟨request_of ?_, ?_⟩, ?_⟩ <;> decide +kernel

theorem test_remoteRequestsRefused :
    (∀ k ∈ [{ writeA with job := 8 }, { readA with src := 3 }, { atomA with job := 6 }],
      homeHead (heard 3 [k]) 11 3 = some k ∧ admitted (heard 3 [k]) k = false) ∧
    (let k := { readA with addr := 0x030000000000 }
     decide (0 < k.len ∧ k.addr % 64 + k.len ≤ 192 ∧ regionOf k.addr = .unmapped) = true ∧ Request (heard 3 [k]) 11 3 2 k) := by
  refine ⟨?_, ?_, request_of ?_⟩ <;> decide +kernel

theorem test_remoteRequestsRefused_unmapped :
    (let k := { writeA with addr := 0x030000000000 }
     decide ((∃ b ∈ maskBlocks k, regionOf (k.addr / 64 * 64 + 64 * b) = .unmapped) ∧
       ∀ b ∈ maskBlocks k, regionOf (k.addr / 64 * 64 + 64 * b) = .unmapped) = true ∧ Request (heard 3 [k]) 11 3 1 k) ∧
    (let k := { atomA with addr := 0x030000000000 }
     decide (k.aux / 2 ≤ 10 ∧ k.aux ≠ 3 ∧ regionOf k.addr = .unmapped) = true ∧ Request (heard 3 [k]) 11 3 4 k) := by
  refine ⟨⟨?_, request_of ?_⟩, ?_, request_of ?_⟩ <;> decide +kernel

/-- Responses to tag 9: data for a load of core 0, an old value for an atomic, a completion and an error for block 0 of ladle 3. -/
def tagged (use : TagUse) (k : Packet) (a : List Acc := []) : State :=
  { heard 19 [k] with
    fab := { netState.fab with tags := [(9, ⟨use, 2, 0, none⟩)] }
    cores := [(0, { coreA 0x1000 with acc := a })]
    ladles := [(3, { cmd := ⟨[], (0, 0), 0, none, 0, none, none, 0⟩, done := [], due := [0], fail := none, bytes := 0 })] }
def accRemote (kind : AccKind) : Acc :=
  { n := 3, ins := 3, grp := 0, blk := 0, ctx := 0, kind := kind, width := 4, lanes := [{ lane := 0, addr := 3 * 2 ^ 48 + 0x20000 }], dst := 3, op := 0
    bypass := true, acq := 0, waits := [], rel := 0, st := .sent, home := true, due := 1, csr := false }

theorem test_responses :
    (∀ x ∈ [(TagUse.load 0 3 [0] none, 3), (.atom 0 3 0, 5), (.ladleWrite 3 0, 6), (.ladleRead 3 0, 7)],
      homeHead (tagged x.1 (pkt x.2 0 [])) 11 19 = some (pkt x.2 0 []) ∧ (liveTag (tagged x.1 (pkt x.2 0 [])) 9).isSome = true) ∧
    findAcc (tagged (.load 0 3 [0] none) (pkt 3 0 []) [accRemote .load]) 0 3 = some (accRemote .load) ∧
    findAcc (tagged (.atom 0 3 0) (pkt 5 0 []) [accRemote .atom]) 0 3 = some (accRemote .atom) ∧
    (mget? (tagged (.ladleWrite 3 0) (pkt 6 0 [])).ladles 3).isSome = true ∧
    homeHead (heard 19 [pkt 3 0 []]) 11 19 = some (pkt 3 0 []) ∧ liveTag (heard 19 [pkt 3 0 []]) 9 = none ∧
    (let s := { tagged (.ladleRead 3 0) (pkt 3 0 []) with refCnt := 1000000 }
     (liveTag s 9).isSome = true ∧ s.fab.tmo.toNat ≤ subMod 64 (now s) 0 ∧
      ((mget? (after (exec (.remoteTimeout 9) s)).fab.tags 9).bind (·.quar)) = some 1000000) := by decide +kernel

/-! ### Coordinators -/

/-- A message of node 2 at port 11, in a state whose coordinator role is given. -/
def mailed (b : Bytes) (s : State := netState) (src : Nat := 2) : State := heard 16 [{ pkt 8 2 b with src := src }] s
theorem mail_of {s : State} {p vc ty : Nat} {k : Packet} (h : (decide (p < 13) && !pllDown s 1 && !pllDown s 3 && decide (homeHead s p vc = some k) && decide (k.opc = 8) &&
    decide (k.tc = 2) && decide (mType k.body = ty) && s.obj.job.isSome) = true) : Mail s p vc ty k := by
  simp only [Bool.and_eq_true, decide_eq_true_eq, Bool.not_eq_true'] at h
  obtain ⟨⟨⟨⟨⟨⟨⟨h1, h2⟩, h3⟩, h4⟩, h5⟩, h6⟩, h7⟩, h8⟩ := h
  exact ⟨h1, ⟨h2, h3⟩, h4, h5, h6, h7, h8⟩

/-- The role set: 2 active, 1 standby; and a decision in hand. -/
def coord (role : Nat) (dec : Option (Decision × Bool × Bool) := none) : State :=
  { netState with
    turn := { netState.turn with coordStat := BitVec.ofNat 64 (role * 2 ^ 30), decide := dec
                                 coordCtl := if role = 1 then 0x0001000000010000 else netState.turn.coordCtl }
    refCnt := 0x4C4B40 }
def decA : Decision := { epoch := 0, dseq := 4, flags := 0, step := 6, base := 5, ents := [], node := 0 }

theorem test_heartbeatsAndMirrors : Mail (mailed (mailB 1 0 0 0 0 6 5 [])) 11 16 1 { pkt 8 2 (mailB 1 0 0 0 0 6 5 []) with src := 2 } ∧
    Mail (mailed (mailB 4 0 4 0 0 6 5 []) (coord 1) 1) 11 16 4 { pkt 8 2 (mailB 4 0 4 0 0 6 5 []) with src := 1 } ∧
    decide (isFrom netState 0 (activeNode netState) = true ∧ mParts (mailB 4 0 4 0 0 6 5 []) = 1 ∧ mPart (mailB 4 0 4 0 0 6 5 []) = 0 ∧
      anyAsleep (coord 2) (slotParts (coord 2) (lastSlot (coord 2)) ++ [(mirrorBase (coord 2) 0, 8), (mirrorBase (coord 2) 1, 8)]) = false ∧
      beatTime (coord 2) ≤ subMod 64 (now (coord 2)) (coord 2).turn.lastBeat ∧ (coord 2).triage.unfit = false ∧
      isFrom (coord 1) 1 (activeNode (coord 1)) = true) = true := by
  refine ⟨mail_of ?_, mail_of ?_, ?_⟩ <;> decide +kernel

theorem test_decisionsTaken :
    (coordRole (coord 2) = 2 ∧ 2 ∈ lostMembers (coord 2) ∧ 3 ∉ lostMembers (coord 2)) ∧
    (let s := coord 2 (some (decA, false, false))
     lossTime s ≤ subMod 64 (now s) s.turn.decideTick ∧ s.turn.decide = some (decA, false, false)) ∧
    (coordRole (coord 1) = 1 ∧ isCurrent (coord 1) (activeNode (coord 1)) = false ∧ (coord 1).obj.job.isSome = true) ∧
    (coord 2).turn.decide = none ∧ (coord 2).turn.accepted = none ∧
    covers (coord 2) decA (mailB 2 0 4 0 3 6 0 []) [] [] = false ∧ covers (coord 2) { decA with epoch := 1 } (mailB 2 0 4 0 3 6 0 []) [] [] = true ∧ (coord 2).fab.epoch.toNat ≤ mEpoch (mailB 2 0 0 0 3 6 0 []) ∧
    mEpoch (mailB 2 0 0 0 3 6 0 []) < ({ coord 2 with fab := { netState.fab with epoch := 1 } } : State).fab.epoch.toNat := by decide +kernel

theorem test_decisionsTaken_report : Mail (mailed (mailB 2 0 0 0 3 6 0 []) (coord 2)) 11 16 2 { pkt 8 2 (mailB 2 0 0 0 3 6 0 []) with src := 2 } :=
  mail_of (by decide +kernel)

theorem test_decisionsCarriedOut :
    (let s := mailed (mailB 5 0 4 0 0 6 5 []) (coord 2 (some (decA, false, false))) 1
     Mail s 11 16 5 { pkt 8 2 (mailB 5 0 4 0 0 6 5 []) with src := 1 } ∧
      decide (decA.dseq = mDseq (mailB 5 0 4 0 0 6 5 []) ∧ decA.epoch = mEpoch (mailB 5 0 4 0 0 6 5 []) ∧
        nextStandby s (logicalNode s) decA.ents = some 1 ∧ isFrom s 1 1 = true) = true) ∧
    (let b := mailB 3 0 4 0 0 6 5 []
     let s := mailed b (coord 1) 1
     Mail s 11 16 3 { pkt 8 2 b with src := 1 } ∧
      decide (mParts b = 1 ∧ mPart b = 0 ∧ bitOf (mCode b) 0 = false ∧ ordersAfter s (decisionOf 1 b) = true ∧
        maySend s (decisionOf 1 b) = true) = true) ∧
    (let b := mailB 3 0 4 0 1 6 5 []
     let s0 := coord 1
     let s := mailed b { s0 with turn := { s0.turn with accepted := some decA, coordStat := 0x50000000 } } 1
     Mail s 11 16 3 { pkt 8 2 b with src := 1 } ∧
      decide (bitOf (mCode b) 0 = true ∧ s.turn.accepted = some decA ∧ decA.epoch = mEpoch b ∧ decA.dseq = mDseq b ∧
        isFrom s 1 (activeNode s) = true ∧ mPart b = 0 ∧ replaying s = true) = true) ∧
    (let b := mailB 6 0 4 0 0 6 5 []
     let s0 := coord 2 (some (decA, true, true))
     let s := mailed b { s0 with turn := { s0.turn with ready := [0, 1] } } 2
     let u := mailed b s0 2
     Mail s 11 16 6 { pkt 8 2 b with src := 2 } ∧
      decide (decA.dseq = mDseq b ∧ decA.epoch = mEpoch b ∧ s.turn.lost = false ∧
        (∀ m ∈ s.obj.members, ∃ n ∈ kput s.turn.ready 2, isFrom s n m.1 = true) ∧
        ∃ m ∈ u.obj.members, ∀ n ∈ kput u.turn.ready 2, isFrom u n m.1 = false) = true) := by
  refine ⟨⟨mail_of ?_, ?_⟩, ⟨mail_of ?_, ?_⟩, ⟨mail_of ?_, ?_⟩, ⟨mail_of ?_, ?_⟩⟩ <;> decide +kernel

/-- A twin with the header of a mirror slot still to send, with nothing to send but writes due, and with all done. -/
def spareState (next due : Nat) : State :=
  { netState with turn := { netState.turn with slot0 := 0x040040000000, spareCopy := some { spare := 3, slot := 0, next := next, due := due } } }

theorem test_spareCopies : granuleCount (turnRegions (spareState 0 0)) = 0 ∧ (spareState 0 0).fab.tags.length + 1366 ≤ 65535 ∧
    asleep (spareState 0 0) (mirrorBase (spareState 0 0) 0 + (sparePart (spareState 0 0) 0).1) (sparePart (spareState 0 0) 0).2 = false ∧
    (spareState 1 4).turn.spareCopy = some { spare := 3, slot := 0, next := 1, due := 4 } ∧
    (after (exec .spareMirrorCopy (spareState 2 0))).turn.spareCopy = none ∧ netState.turn.spareWait = false := by decide +kernel

/-! ## The hoop engine -/

/-- Words of 64 bits from an address on, as memory. -/
def memWords (m : Map Byte) (a : Nat) (ws : List Nat) : Map Byte := putBytes m a (ws.flatMap (leBytes 8))

/-- A ring of four in X with this module at its start; bucket 1 of `blocks` blocks, generation 3, one signal, one or two
ripening slots, at step 5 with its BUCKET_READY signal, FOLD as given; SRC 0x60000, DST 0x70000, EXP 0x78000, ripening 0x80000. -/
def hoopState (blocks fold ready : Nat) (steps : List BStep) : State :=
  { full with
    mem := memWords (memWords [] 0x40040 [(blocks - 1) * 2 ^ 40 + 3 * 2 ^ 32 + 2 * 2 ^ 13 + 0x400 + fold * 256, 0x60000, 0x70000, 0x78000,
      0, 0x80000, 0, 0]) 0x50040 [5, 0, 0, 0, ready * 2 ^ 16, 0, 0, 0]
    obj := { full.obj with job := some (7, 0, 0), members := [(0, 1, 0), (1, 0, 1), (2, 1, 2)] }
    turn := { State.reset.turn with coordCtl := 0x0001000200010000 }
    hoop := { State.reset.hoop with
      ctl := 0x80400000, bktBase := 0x40000, stateBase := 0x50000, bktCnt := 2, grid := 3, next := 1, prev := 2, steps := steps, loaded := [1] } }

/-- A REDUCE packet of node 2: phase, format, COUNT, step, index and load. -/
def redPkt (phase fmt step index : Nat) (load : Bytes) (xres : Nat := 0) (epoch : Nat := 0) : Packet :=
  { dst := 0, src := 2, job := 7, opc := 9, tc := 3
    body := rBody (2 ^ 48 + 3 * 2 ^ 40 + phase * 2 ^ 37 + fmt * 2 ^ 33 + epoch) 1 step index xres load }
def heardRed (s : State) (k : Packet) : State :=
  { s with ports := [(11, { state := 5, ingress := [{ pkt := k, vc := 24, tick := 0 }] })] }

/-- A block of zeros with its residue, and a step of bucket 1 that has begun. -/
def zeroBlock : Bytes := gBytes { x := 0, flags := 0, res := dgResidue zeroLanes, m := zeroLanes }
def stepA : BStep := { b := 1, step := 5, since := 0, begun := true }

theorem arrival_of {s : State} {p vc ph : Nat} {k : Packet} (h : decide (p < 12 ∧ pllDown s 1 = false ∧ homeHead s p vc = some k ∧ k.opc = 9 ∧ k.tc = 3 ∧
    rPhase k.body = ph ∧ admitted s k = true ∧ hoopOn s = true ∧ s.hoop.matchB.length < 4096 ∧ rStage k.body ≠ 3 ∧
    rEpoch k.body = s.fab.epoch.toNat ∧ slotOpen s (rBkt k.body) (rGen k.body) = true ∧ isFresh s (rBkt k.body) = false) = true) :
    Arrival s p vc ph k := by
  obtain ⟨a, q, b, c, d, e, f, g, h, i, j, k, l⟩ := of_decide_eq_true h
  exact ⟨a, q, b, c, d, e, f, g, h, i, j, k, l⟩

theorem ofStep_of {s : State} {m : Bytes} {x : BStep} (h : (decide (subMod 48 (rStep m) (curStep s (rBkt m)) = 0) &&
    decide (bstep? s (rBkt m) = some x) && decide (x.b = rBkt m) && !x.stop && decide (x.wait = []) && msgFits s m && arrivalOk m) = true) :
    OfStep s m x := by
  simp only [Bool.and_eq_true, decide_eq_true_eq, Bool.not_eq_true'] at h
  exact ⟨h.1.1.1.1.1.1, h.1.1.1.1.1.2, h.1.1.1.1.2, h.1.1.1.2, h.1.1.2, h.1.2, h.2⟩

/-- Signals of bucket 1, generation 3: SCALE_READY and BUCKET_READY, for step 6 and step 5; one for generation 4. -/
def sig (kind step gen : Nat) : Dword := BitVec.ofNat 64 (step * 2 ^ 28 + kind * 2 ^ 24 + gen * 2 ^ 16 + 1)

theorem test_hoopSignals :
    (let s := hoopState 4 0 0 []
     hoopOn s = true ∧ slotOpen s 1 3 = true ∧ slotOpen s 1 4 = false ∧ (bucketOf s 1).thin = false ∧ isFresh s 1 = false ∧
      bstep? s 1 = none ∧ (∀ k ∈ [0, 1], fld (sig k 6 3).toNat 25 24 = k ∧ fld (sig k 6 3).toNat 15 0 = 1 ∧
        subMod 48 (fullStep (curStep s 1) (fld (sig k 6 3).toNat 63 28)) (curStep s 1) = 1 ∧
        subMod 48 (fullStep (curStep s 1) (fld (sig k 5 3).toNat 63 28)) (curStep s 1) = 0) ∧
      sigCount (after (exec (.hoopBucketReady 0 (sig 1 6 3)) s)) 1 1 true = 1 ∧
      (after (exec (.hoopScaleReady 0 (sig 0 6 4)) s)).hoop.stat = 1) ∧
    hoopOn full = false := by decide +kernel

/-- A signal for the step before the current one, which is folded. -/
theorem test_hoopSignals_late :
    (let s0 := hoopState 4 0 0 []
     let s := { s0 with hoop := { s0.hoop with folds := [(1, 4)] } }
     fullStep (curStep s 1) (fld (sig 1 4 3).toNat 63 28) = 4 ∧ 1 < subMod 48 4 (curStep s 1) ∧ s.hoop.folds.contains (1, 4) = true ∧
      slotOpen s 1 3 = true) := by decide +kernel

theorem test_bucketStepsRun :
    (let s0 := after (exec (.hoopBucketReady 0 (sig 1 6 3)) (hoopState 4 0 0 []))
     let s := { s0 with hoop := { s0.hoop with loaded := [] } }
     (slotOpen s 1 (bucketOf s 1).gen = true ∧ nextHeld s 1 = true ∧ 1 ∉ s.hoop.loaded ∧ s.hoop.loaded.length < 1024) ∧
     (hoopOn s0 = true ∧ isFresh s0 1 = false ∧ bstep? s0 1 = none ∧ nextHeld s0 1 = true ∧ 1 ∈ s0.hoop.loaded ∧ 1 ∉ s0.hoop.closing ∧
      curStep (after (exec (.bucketStepOpen 1) s0)) 1 = 6)) ∧
    (let x := { stepA with redDone := [0, 1, 2, 3] }
     let s0 := hoopState 4 0 1 [x]
     let s := { s0 with obj := { s0.obj with fenceBase := 0x90000 } }
     bstep? s 1 = some x ∧ x.stop = false ∧ hoopClear s 1 = true ∧ (bucketOf s 1).blocks ≤ x.redDone.length ∧ x.folded = false ∧ x.joined = [] ∧
      recAt s 1 + 64 ≤ s.obj.fenceBase.toNat ∧ recNum (after (exec (.bucketStepComplete 1) s)) 1 7 1 = 1) := by decide +kernel

theorem test_reduceMessagesTested :
    (∀ ph ∈ [0, 1, 2, 3], Arrival (heardRed (hoopState 4 0 1 [stepA]) (redPkt ph 0 6 2 [])) 11 24 ph (redPkt ph 0 6 2 []) ∧
      Arrival (heardRed (hoopState 4 0 1 [stepA]) (redPkt ph 0 7 2 [])) 11 24 ph (redPkt ph 0 7 2 [])) ∧
    (let s := heardRed (hoopState 4 0 1 [stepA]) (redPkt 2 0 6 2 [])
     subMod 48 (rStep (redPkt 2 0 6 2 []).body) (curStep s 1) = 1 ∧ 1 < subMod 48 (rStep (redPkt 2 0 7 2 []).body) (curStep s 1) ∧
      s.hoop.matchB.length < 4096) ∧
    (let k := redPkt 2 0 5 2 [] 0 1
     let s := heardRed (hoopState 4 0 1 [stepA]) k
     homeHead s 11 24 = some k ∧ k.opc = 9 ∧ k.tc = 3 ∧ s.hoop.matchB.length < 4096 ∧ rPhase k.body = 2 ∧ admitted s k = true ∧ hoopOn s = true ∧ rStage k.body ≠ 3 ∧
      rEpoch k.body ≠ s.fab.epoch.toNat) := by
  refine ⟨fun ph h => ?_, ?_, ?_⟩
  · simp only [List.mem_cons, List.not_mem_nil, or_false] at h
    rcases h with rfl | rfl | rfl | rfl <;> exact ⟨arrival_of (by decide +kernel), arrival_of (by decide +kernel)⟩
  · decide +kernel
  · decide +kernel

/-- Messages of the next step that pass their check and that fail it, and one of another generation. -/
theorem test_reduceMessagesTested_ahead :
    (let k := redPkt 2 0 6 2 zeroBlock
     let s := heardRed (hoopState 4 0 1 [stepA]) k
     msgFits s k.body = true ∧ arrivalOk k.body = true ∧ s.hoop.matchB = [] ∧ s.hoop.fails = [] ∧
      (after (exec (.reduceRedRs 11 24 {}) s)).hoop.matchB.map (·.1) = [2]) ∧
    (let k := redPkt 2 0 6 2 (0x5A :: zeroBlock.drop 1)
     let s := heardRed (hoopState 4 0 1 [stepA]) k
     msgFits s k.body = true ∧ arrivalOk k.body = false ∧ fld (after (exec (.reduceRedRs 11 24 {}) s)).hoop.chk.toNat 63 48 = 1) ∧
    (let k := { redPkt 2 0 5 2 [] with body := rBody (2 ^ 48 + 4 * 2 ^ 40 + 2 * 2 ^ 37) 1 5 2 0 [] }
     let s := heardRed (hoopState 4 0 1 [stepA]) k
     homeHead s 11 24 = some k ∧ rPhase k.body = 2 ∧ admitted s k = true ∧ hoopOn s = true ∧ rStage k.body ≠ 3 ∧
      rEpoch k.body = s.fab.epoch.toNat ∧ slotOpen s (rBkt k.body) (rGen k.body) = false ∧
      fld (after (exec (.reduceRedRs 11 24 {}) s)).hoop.drop.toNat 63 48 = 1) := by decide +kernel

/-- A full match buffer. -/
theorem test_reduceMessagesTested_full :
    (let s0 := heardRed (hoopState 4 0 1 [stepA]) (redPkt 2 0 6 2 [])
     let s := { s0 with hoop := { s0.hoop with matchB := List.replicate 4096 (2, (redPkt 2 0 6 2 []).body) } }
     4096 ≤ s.hoop.matchB.length ∧ homeHead s 11 24 = some (redPkt 2 0 6 2 []) ∧ admitted s (redPkt 2 0 6 2 []) = true) := by decide +kernel

/-- A partial of block 2 that comes before the contribution is ready. -/
def partialA : Packet := redPkt 2 0 5 2 zeroBlock
def scaleA : Packet := redPkt 0 3 5 0 (List.replicate 128 9) (xresOf (List.replicate 128 9))

theorem test_reducePartialsWait :
    (Arrival (heardRed (hoopState 4 0 0 [stepA]) partialA) 11 24 2 partialA ∧ OfStep (heardRed (hoopState 4 0 0 [stepA]) partialA) partialA.body stepA) ∧
    (Arrival (heardRed (hoopState 4 0 0 [stepA]) scaleA) 11 24 0 scaleA ∧ OfStep (heardRed (hoopState 4 0 0 [stepA]) scaleA) scaleA.body stepA) ∧
    (let s := heardRed (hoopState 4 0 0 [stepA]) partialA
     decide (stepA.hops = [] ∧ stepA.folded = false ∧ logged s 5 = false ∧ isReady s 1 1 = false ∧ isReady s 1 0 = false) = true) := by
  refine ⟨⟨arrival_of ?_, ofStep_of ?_⟩, ⟨arrival_of ?_, ofStep_of ?_⟩, ?_⟩ <;> decide +kernel

/-- Block 2 at the second place of its chain, with a contribution of zeros. -/
def hopState : State :=
  let s := hoopState 4 0 1 [stepA]
  heardRed { s with mem := putBytes s.mem (0x60000 + 264) zeroBlock } partialA

theorem test_reduceHop : Arrival hopState 11 24 2 partialA ∧ OfStep hopState partialA.body stepA ∧
    decide (isReady hopState 1 1 = true ∧ (bucketOf hopState 1).thin = false ∧ dutyMode hopState 2 = 0 ∧ (hopStages hopState).head? = some 0 ∧
      rStage partialA.body = 0 ∧ takesPart hopState 0 2 = true ∧ hopState.hoop.sendq = [] ∧ hopState.hoop.resend.length < 32768 ∧ hopState.hoop.upset = {} ∧ chainAt hopState 0 2 = 1 ∧ ownsBlock hopState 0 2 = false ∧
      readBlock hopState (0x60000 + 264) = some (gRead zeroBlock) ∧
      (after (exec (.reduceRedRs 11 24 {}) hopState)).hoop.resend.map (fun r => (r.node, rCount r.body)) = [(1, 2)]) = true := by
  refine ⟨arrival_of ?_, ofStep_of ?_, ?_⟩ <;> decide +kernel

/-- Gathered messages: block 3 of DST, and exponent chunk 1 of two. -/
def gatherA : Packet := redPkt 3 0 5 3 zeroBlock
def gatherScale : Packet := redPkt 1 3 5 1 (List.replicate 128 9) (xresOf (List.replicate 128 9))

theorem test_reduceGather :
    (Arrival (heardRed (hoopState 4 0 1 [stepA]) gatherA) 11 24 3 gatherA ∧ OfStep (heardRed (hoopState 4 0 1 [stepA]) gatherA) gatherA.body stepA ∧
      3 ∉ stepA.redDone ∧ (heardRed (hoopState 4 0 1 [stepA]) gatherA).hoop.sendq = []) ∧
    (let s := heardRed (hoopState 256 0 1 [stepA]) gatherScale
     Arrival s 11 24 1 gatherScale ∧ OfStep s gatherScale.body stepA ∧
      decide (1 ∉ stepA.sclDone ∧ stepA.sclDone.length + 1 < itemsOf (bucketOf s 1) 0 ∧
        rdByte (after (exec (.reduceScaleAg 11 24) s)) (0x78000 + 2 * 255 + 1) = 9) = true) := by
  refine ⟨⟨arrival_of ?_, ofStep_of ?_, ?_, ?_⟩, arrival_of ?_, ofStep_of ?_, ?_⟩ <;> decide +kernel

/-- Block 63 past index 0 waits for its ACK; a NAK of a reduce-scatter block. -/
def resendA (idx : Nat) (naks touts : Nat := 0) : Resend :=
  { node := 2, stripe := false, body := (redPkt 2 0 5 idx zeroBlock).body, since := 0, naks := naks, touts := touts }
def ackA : Packet := redPkt 4 0 5 0 (leBytes 8 (2 ^ 63))
def nakA : Packet := redPkt 5 0 5 2 [2]
def withResend (rs : List Resend) (k : Packet) : State :=
  let s := heardRed (hoopState 64 0 1 []) k
  { s with hoop := { s.hoop with resend := rs }, refCnt := 1000000 }

theorem test_reduceAcknowledgements :
    (Arrival (withResend [resendA 63] ackA) 11 24 4 ackA ∧ decide (leVal (rLoad ackA.body 8) = 2 ^ 63 ∧
      resendOf (withResend [resendA 63] ackA) 2 ackA.body 63 none = some (resendA 63) ∧
      subMod 48 (rStep ackA.body) (curStep (withResend [resendA 63] ackA) 1) = 0) = true) ∧
    (Arrival (withResend [resendA 2] nakA) 11 24 5 nakA ∧ decide (leVal (rLoad nakA.body 1) % 8 = 2 ∧ (resendA 2).naks = 0 ∧
      resendOf (withResend [resendA 2] nakA) 2 nakA.body 2 (some 2) = some (resendA 2)) = true) ∧
    decide ((withResend [resendA 2] nakA).fab.tmo.toNat ≤ subMod 64 (now (withResend [resendA 2] nakA)) 0 ∧ (resendA 2 0 1).touts ≠ 0 ∧
      (withResend [resendA 2] nakA).obj.job.isSome = true ∧
      (after (exec (.reduceResendTimeout 0) (withResend [resendA 2] nakA))).hoop.stat.getLsbD 6 = true) = true ∧
    ({ full with hoop := { full.hoop with acks := [⟨2, false, ackA.body, 0, 1⟩] } } : State).hoop.acks[0]? = some ⟨2, false, ackA.body, 0, 1⟩ := by
  refine ⟨⟨arrival_of ?_, ?_⟩, ⟨arrival_of ?_, ?_⟩, ?_, rfl⟩ <;> decide +kernel

/-- Sums at both ends of 20 bits, and of two blocks whose lanes fit. -/
theorem test_hopArithmetic :
    (let h : HopSum := { lanes := List.replicate 64 (-(2 ^ 19)) ++ [], x := 0, flags := 0, nan := false }
     (∀ v ∈ h.lanes, -(2 ^ 19) ≤ v ∧ v < 2 ^ 19) ∧ lanesFit (gFinish h).g.m = true) ∧
    (let a : GBlock := { x := 9, flags := 7, res := 0, m := List.replicate 64 32767 }
     let b : GBlock := { x := 9, flags := 0, res := 0, m := List.replicate 64 (-32768) }
     a.x = b.x ∧ a.flags < 8 ∧ a.m.length = 64 ∧ b.m.length = 64 ∧ lanesFit (List.zipWith (· + ·) a.m b.m) = true ∧
      (gFinish (gAdd [a, b] false)).g.m = List.replicate 64 (-1)) := by decide +kernel

/-- A hold window that has run out with and without FOLD; the folded step's contribution with a free ripening slot 0 and 1, and
with none free; a step without progress; a parked block. -/
def lateStep (folded : Bool) (w : Option Nat) : BStep := { stepA with folded := folded, window := w }
def lateState (fold : Nat) (x : BStep) : State := { hoopState 1 fold 1 [x] with refCnt := 20000000 }
def ripened (n : Nat) (s : State) : State := { s with mem := memWords s.mem (0x50040 + 0x28) (List.replicate n (2 ^ 63 + 4)) }

theorem test_lateContributions :
    (let s := lateState 1 (lateStep false (some 0))
     (bucketOf s 1).hold ≤ subMod 64 (now s) 0 ∧ (bucketOf s 1).fold = true ∧ s.hoop.stat.getLsbD 8 = false ∧ bstep? s 1 = some (lateStep false (some 0)) ∧
      (bucketOf (lateState 0 (lateStep false (some 0))) 1).fold = false) ∧
    (let s := lateState 1 (lateStep true none)
     let e := bucketOf s 1
     (lateStep true none).lateDone = false ∧ isReady s 1 1 = true ∧ 0 < e.ripenMax ∧ ripeFull s 1 0 = false ∧
      (∀ j ∈ List.range e.blocks, (readBlock s (e.src + 132 * j)).isSome = true) ∧ e.src + 132 * e.blocks ≤ e.ripe ∧ recAt s 1 + 64 ≤ e.ripe ∧
      ripeFull (ripened 1 s) 1 0 = true ∧ ripeFull (ripened 1 s) 1 1 = false ∧ 1 < e.ripenMax) ∧
    (let s := ripened 2 (lateState 1 (lateStep true none))
     (∀ k ∈ List.range (bucketOf s 1).ripenMax, ripeFull s 1 k = true) ∧ isReady s 1 1 = true ∧
      s.hoop.stall.toNat ≤ subMod 64 (now s) 0 ∧ s.obj.job.isSome = true) ∧
    (let q : Parked := { b := 1, step := 5, stage := 0, j := 2, lanes := zeroLanes, x := 9, flags := 0, count := 1 }
     let s0 := hoopState 4 0 1 [stepA]
     let s := { s0 with hoop := { s0.hoop with parked := [q] } }
     s.hoop.parked[0]? = some q ∧ s.hoop.sendq = [] ∧ s.hoop.resend.length < 32768 ∧ ownsBlock s 0 2 = false ∧ q.lanes.length = 64 ∧
      (after (exec (.rescaleAssistReturn 0) s)).hoop.resend.length = 1) := by decide +kernel

/-! ## Reads that clear, the meter, fault triage, power, clocks and starts -/

/-- Statements without a hypothesis, or with one only on a number: the values at its ends. -/
theorem test_readsThatClear : (after (exec .readHoopDrop { full with hoop := { full.hoop with drop := 7 } })).hoop.drop = 0 ∧
    (after (exec (.readRuongPerr 11) { full with ports := [(11, { perr := 9 })] })).out = [.reg 9] ∧
    (after (exec (.readPcieLerr 3) { full with pcies := [(3, { lerr := 5 })] })).out = [.reg 5] := by decide +kernel

/-- A period of 10,000,000 ticks that ends now, and one that has not ended. -/
def period (t : Dword) : State := { full with refCnt := t }

/-- A frame of no entries of generation 2, number 1, and whether the meter takes it after number 0 (R565, R566). -/
def frameA : Bytes := wordsB [2 * 2 ^ 48 + 1, 2, 0] ++ leBytes 4 (crc32c (wordsB [2 * 2 ^ 48 + 1, 2, 0]))
def metered (m : Meter) : State := { full with meter := m }

theorem test_meterReadings :
    (subMod 64 (now (period 9999999)) full.meter.periodFrom < 10000000 ∧ full.start.mode = .normal ∧ HubRuns full) ∧
    10000000 ≤ subMod 64 (now (period 10000000)) full.meter.periodFrom ∧
    (frameOk frameA = true ∧ fld (wordAt frameA 0) 63 48 = 2 ∧ fld (wordAt frameA 0) 31 0 = 1 ∧
      (metered { last := some (2, 0) }).meter.last = some (2, 0)) ∧
    frameOk [] = false ∧
    (meterState full.meter = 0 ∧ full.meter.powered = true ∧ full.meter.isOpen = true ∧ intervalTicks full.meter = 45000000000) ∧
    (after (exec (.meterFrameAccept frameA) (metered { last := some (2, 0) }))).meter.last = some (2, 1) ∧
    (after (exec (.meterFrameAccept frameA) (metered { last := some (1, 9), era := 4 }))).meter.era = 5 := by decide +kernel

/-- A record that closed at tick 9, in which the open interval began. -/
def justClosed : Meter := { tStart := 9, ring := [(0, leBytes 8 0 ++ leBytes 24 0 ++ leBytes 8 9 ++ leBytes 24 0)] }

theorem test_meterModes : full.meter.powered = true ∧ meterState full.meter = 0 ∧ full.meter.contact = false ∧
    (let m : Meter := { powered := false, lossAt := some (4, 5) }
     m.fault = false ∧ m.isOpen = true ∧ meterState (after (exec (.meterPowerReturn 6 7) (metered { m with contact := true }))).meter = 3) ∧
    (meterState ({ powered := false, fault := true } : Meter) = 2) ∧
    (meterState ({ service := true } : Meter) = 3 ∧ meterState ({ silent := true } : Meter) = 1) ∧
    closedNow justClosed 9 = true ∧ closedNow {} 0 = false ∧ mget? justClosed.ring (justClosed.head.toNat % 256) ≠ none ∧
    (let m : Meter := { contact := true, service := true, exitReq := true }
     (after (exec (.serviceContactOpen 1 2) (metered m))).meter.service = false) ∧
    (after (exec (.meterSealedFault true) (metered { contact := true }))).meter.fault = false ∧
    meterState (after (exec (.meterSealedFault true) full)).meter = 2 := by decide +kernel

/-- Whatever key and signature pass the checks, a state with the serial number of the command accepts it. -/
theorem test_meterServiceCommands (opc : Nat) (c : MeterCmd) (h : sha256 c.pub = Config.metrologyHash)
    (hid : c.serial.toNat = serialOf full)
    (hs : Config.slhVerify c.pub
      ([BitVec.ofNat 8 opc] ++ wordsB [c.serial.toNat, c.nonce.toNat, c.arg.toNat, c.off.toNat] ++ c.img) c.sig = true) :
    Accepts (metered { service := true, nonce := c.nonce - 1 }) opc c :=
  ⟨rfl, rfl, h, hs, hid, (BitVec.sub_add_cancel c.nonce 1).symm⟩

theorem test_meterServiceCommands_refused : ¬ Accepts full 1 { pub := [], serial := 0, nonce := 1, arg := 60, sig := [] } :=
  fun h => absurd h.mode (by decide)

theorem test_meterServiceCommands_interval : 60 ≤ (60 : Dword).toNat ∧ (3600 : Dword).toNat ≤ 3600 ∧ (59 : Dword).toNat < 60 ∧
    3600 < (3601 : Dword).toNat := by decide

/-- Events of each kind; one of a class 7 that has caused a replay in this step, and one that has not; and the ends of the window. -/
def evt (cls : Nat) (d0 : Dword := 0x20000) : FaultInfo := { cls := cls, source := 0x10, tier := .cave, d0 := d0 }
def triageState (t : Triage) (r : Dword := 0) : State := { full with triage := t, refCnt := r }

theorem test_faultTriageAndLog :
    recurs full (evt 7) = false ∧ recurs (triageState { caused := [⟨7, faultSubject (evt 7), 0, true⟩] }) (evt 7) = true ∧
    recurs (triageState { caused := [⟨7, faultSubject (evt 7), 0, false⟩] }) (evt 7) = false ∧ recurs full (evt 8) = false ∧ recurs (triageState { caused := [⟨8, faultSubject (evt 8), 0, true⟩] }) (evt 8) = true ∧
    (full.start.stage = 4 ∧ full.start.mode = .normal ∧ full.start.request = none) ∧ State.reset.start.stage.toNat < 3 ∧
    isMem (evt 2).d0.toNat = true ∧ (evt 2).met = false ∧ (evt 1).tier = .cave ∧ granulesOf full 0x20000 1 = [] ∧
    jobConsumer full { evt 2 with met := true } = false ∧ RindRuns full ∧ (triageState { attn := [evt 1] }).triage.attn = [evt 1] ∧ full.triage.attn = [] ∧
    subMod 64 (now (triageState {} 359999999999)) full.triage.windowFrom < 360000000000 ∧
    360000000000 ≤ subMod 64 (now (triageState {} 360000000000)) full.triage.windowFrom ∧ full.triage.seq < 2 ^ 32 ∧
    (let s := after (exec (.faultTriage (some (evt 0x0B))) full)
     (s.triage.log.map fun r => (r.cls, r.action, r.seq)) = [(0x0B, 1, 0)] ∧ s.triage.flashed = 0 ∧
      (unflashed s.triage).length = 1) ∧ full.triage.log = [] := by decide +kernel

/-- A window at the ends of the thermal rule, and one that trips on each limit (R606, R607). -/
def win (avg : Nat) (t : Int) : PowerSample := { pAvg := avg, inlet := some 3200, tj := [t, 12799, 12800, 13439], hub := 14719 }

def windowState (r : Dword) : State := { full with refCnt := r }

theorem test_powerInput :
    (let s : State := { full with pow := { vin := false, rise := false, rails := 0, pgood := false } }
     s.pow.vin = false ∧ s.pow.en = true ∧ s.pow.latched = false ∧ (after (exec (.powerApply 5) s)).pow.rise = true) ∧
    (let s : State := { full with pow := { vin := true, rise := true, rails := 5, pgood := false } }
     let t : State := { s with pow := { s.pow with rails := 6 } }
     (after (step s)).pow.rails = 6 ∧ (after (step s)).pow.pgood = false ∧ (after (step t)).pow.pgood = true ∧
       (after (step { t with pow := { t.pow with rise := false } })).pow.rails = 5) ∧
    (full.pow.vin = true ∧ full.pow.rise = true ∧ full.pow.rails = 6 ∧ full.start.mode ≠ .refLost ∧ full.pow.refGone = false ∧
      full.pending = []) ∧
    (after (exec (.railOutOfTolerance 0) full)).pow.latched = true ∧
    ({ full with pow := { rise := false, pgood := false, latched := true } } : State).pow.latched = true ∧
    (let s : State := { full with start := { mode := .off } }
     s.pow.vin = true ∧ s.pow.en = true ∧ s.pow.pgood = true ∧ s.start.mode = .off) ∧
    subMod 64 (now (windowState 99999)) full.pow.winFrom < 100000 ∧ 100000 ≤ subMod 64 (now (windowState 100000)) full.pow.winFrom ∧
    (let s := after (exec (.powerWindow (win 460801 13440)) (windowState 100000))
     s.pow.k = 4 ∧ s.pow.floors = [32, 0, 0, 0] ∧ s.pow.kv = [32, 4, 4, 4] ∧ s.pow.winFrom = 100000) ∧
    inletLimit (some 3200) = 460800 ∧
    (after (exec (.powerWindow { win 0 0 with hub := 14720 }) (windowState 100000))).pow.latched = true ∧
    (let s : State := { full with pow := { sensors := [(3, 0x61A8)] } }
     mget? s.pow.sensors 3 = some 0x61A8 ∧ effLimit { s.pow with flowLow := true } < 16 * 0x61A8 ∧
       (after (exec .flowLow s)).pow.crossed = true) := by decide +kernel

/-- The module whose last sensor word of stack 23 is 115 °C. -/
def hotStack : State := { full with pow := { sensors := [(0x27, 14720)] } }

theorem test_powerInput_trips : ¬ Trips full (win 460801 13440) ∧ Trips full { win 0 0 with hub := 14720 } ∧ Trips full (win 0 14720) ∧
    Trips hotStack (win 0 0) ∧ Trips full { win 0 0 with inlet := some 6401 } ∧ ¬ Trips full { win 0 0 with inlet := some 6400 } := by
  refine ⟨?_, .inl (.inl (by decide)), .inl (.inr (.inl ⟨14720, by simp [win], by decide⟩)),
      .inl (.inr (.inr ⟨23, 14720, by decide, by decide +kernel, by decide⟩)), .inr ⟨6401, rfl, by decide⟩, ?_⟩ <;>
    · rintro ((h | ⟨x, h, hx⟩ | ⟨k, v, -, h, -⟩) | ⟨x, h, hx⟩)
      · exact absurd h (by decide)
      · simp only [win, List.mem_cons, List.not_mem_nil, or_false] at h
        omega
      · exact absurd h (by simp [full, State.reset, mget?])
      · cases h
        exact absurd hx (by decide)

/-- PLLs 1 and 35; the press PLL with every press of vat 0 stopped; and gates that wait. -/
def stoppedVat : State := { full with cores := (List.range 64).map fun c => (c, { press := { stopped := true, wake := true } }) }

theorem test_clocking : (full.pow.vin = true ∧ full.pow.rise = true ∧ full.pow.rails = 6 ∧ full.pow.refGone = false ∧ full.start.mode ≠ .off) ∧
    pllDown { full with clk := { down := 2 } } 1 = true ∧ pllDown { full with clk := { down := 8 } } 3 = true ∧
    pressRuns { full with clk := { down := 0x100 } } 0 = false ∧ full.clk.stat.getLsbD 1 = true ∧ full.clk.stat.getLsbD 35 = true ∧
    State.reset.clk.stat.getLsbD 35 = false ∧
    (stoppedVat.start.stage = 4 ∧ stoppedVat.start.mode = .normal ∧ stoppedVat.clk.fast = false ∧ stoppedVat.clk.relock = false ∧
      ∀ c ∈ List.range 64, (coreOf stoppedVat c).press.stopped = true) ∧
    (coreOf full 63).press.stopped = false ∧ ({ full with clk := { relock := true } } : State).clk.relock = true ∧
    ((coreOf stoppedVat 63).press.stopped = true ∧ (coreOf stoppedVat 63).press.wake = true ∧ stoppedVat.clk.relock = false) ∧
    ((portOf full 11).en = true ∧ (portOf full 11).state = 0 ∧ full.start.mode = .normal) := by decide +kernel

/-- Starts at each stage. -/
def startState (st : Start) : State := { State.reset with start := st }
def allPass : Training := { stackUp := 0xFFFFFF, channels := 0xFFFF, bist := List.replicate 4 (BitVec.allOnes 66) }

theorem test_startStages : State.reset.start.mode = .normal ∧ State.reset.start.stage = 0 ∧ State.reset.start.warm = false ∧
    (startState { stage := 0, warm := true }).start.warm = true ∧ (startState { stage := 1 }).start.stage = 1 ∧
    (let s := startState { stage := 2, released := true, idValid := true }
     s.start.stage = 2 ∧ s.start.released = true ∧ s.start.idValid = true ∧ s.start.up = false ∧ s.start.warm = false) ∧
    (let s := startState { stage := 2, up := true }
     s.start.up = true ∧ s.start.warm = false ∧ s.start.stage = 2) ∧
    (let s := startState { stage := 3, up := true }
     s.start.up = true ∧ s.start.stage = 3 ∧ ∀ v ∈ [0, 1, 2, 3], 64 ≤ popCount 66 (allPass.bist.getD v 0).toNat) ∧
    ¬ 64 ≤ popCount 66 ((List.replicate 4 (0x7FFFFFFFFFFFFFFF : BitVec 66)).getD 0 0).toNat ∧ allPass.stackUp = BitVec.allOnes 24 ∧
    allPass.channels = BitVec.allOnes 16 ∧ (0x7FFF : BitVec 16) ≠ BitVec.allOnes 16 := by decide +kernel

/-- Firmware and configuration are either valid or not; each case is one of the clauses. -/
theorem test_startStages_images (s : State) : (fwInFlash s = none ∨ ∃ f, fwInFlash s = some f) ∧
    ((∃ e, cfgCheck s (cfgInFlash s) = .error e) ∨ ∃ f, cfgCheck s (cfgInFlash s) = .ok f) := by
  constructor
  · cases fwInFlash s <;> simp
  · cases cfgCheck s (cfgInFlash s) <;> simp

/-- A store of core 0 that is under way. -/
def storeA : Acc :=
  { n := 3, ins := 3, grp := 0, blk := 0, ctx := 0, kind := .store, width := 4, lanes := [{ lane := 0, addr := 0x20000, data := 7 }]
    dst := 3, op := 0, bypass := false, acq := 0, waits := [], rel := 0, st := .sent, home := false, due := 0, csr := false }

theorem test_warmStarts : full.start.mode = .normal ∧ full.start.request = none ∧
    (startState { request := some true }).start.request = some true ∧ (startState { request := some false }).start.request = some false ∧
    full.memCtl.srHold = true ∧ ({ full with memCtl := { srHold := false } } : State).memCtl.srHold = false ∧ full.start.released = true ∧
    100000000 ≤ subMod 64 (now (period 100000000)) full.start.heartbeat ∧ subMod 64 (now (period 99999999)) full.start.heartbeat < 100000000 ∧
    full.start.stage = 4 ∧ workLeft (stoppedAll full) = false ∧
    workLeft (stoppedAll (withCore { coreA 0x1000 with acc := [storeA] })) = true ∧
    (let s := startState { stage := 2, warm := true, up := true, stackUp := 0xFFFFFF, caveUp := 0xFFFF }
     s.memCtl.srHold = true ∧ (after (exec (.fullServiceEntry allPass) s)).start.stage = 4 ∧
       (after (exec (.fullServiceEntry allPass) { s with vatFail := [0, 1, 2] })).start.fail = 5) := by decide +kernel

/-! ## Management, scan, sensors, service ports, sessions and RDMA -/

/-- Full service with management connection 3, with and without the MGMT right. -/
def mgmt (rights : BitVec 3) (s : State := full) : State :=
  { s with obj := { s.obj with conns := [(3, { since := 0, hello := none, rights := rights })] } }

theorem test_manages : Manages (mgmt 4) 3 ∧ Unproved (mgmt 3) 3 :=
  ⟨⟨by decide +kernel, by decide +kernel, ⟨{ since := 0, hello := none, rights := 4 }, by decide +kernel⟩⟩,
    ⟨by decide +kernel, by decide +kernel, ⟨{ since := 0, hello := none, rights := 3 }, by decide +kernel⟩⟩⟩

theorem test_managementPort : served full ≠ .nothing ∧
    (let s : State := { full with obj := { full.obj with conns := (List.range 3).map fun n => (n, { since := 0, hello := none, rights := 0 }) } }
     (∀ k ∈ List.range 3, (mget? s.obj.conns k).isSome = true) ∧ mget? s.obj.conns 3 = none) ∧
    (let s : State := { full with obj := { full.obj with conns := (List.range 4).map fun n => (n, { since := 0, hello := none, rights := 0 }) } }
     (∀ k ∈ List.range 4, (mget? s.obj.conns k).isSome = true) ∧ (after (exec .mgmtConnect s)).out = [.refused 4]) ∧
    ((mgmt 4).start.mode = .normal ∧ (mgmt 4).start.stage = 4 ∧ (mgmt 4).start.request = none ∧ (mgmt 4).start.flashWrite = none) ∧
    (let s := mgmt 4 { full with meter := { head := 256, ring := [(255, [7])] } }
     meterState s.meter ≠ 1 ∧ s.meter.powered = true ∧ (1 : Nat) ≤ s.meter.head.toNat ∧ s.meter.head.toNat < 1 + 256 ∧ s.meter.head.toNat < 257) ∧
    (coreOf (mgmt 4) 255).ctx = none ∧ meterState (mgmt 4).meter ≠ 3 ∧ fwInMem [] = none ∧
    (let s : State := { full with tests := [(255, 263, none, ⟨.wheyBist 255, false⟩)] }
     s.tests.find? (fun t => t.1 == 255) = some (255, 263, none, ⟨.wheyBist 255, false⟩)) ∧
    ({ full with start := { mode := .recovery } } : State).start.mode = .recovery ∧
    served { full with start := { mode := .recovery } } = .recovery ∧ served { full with start := { stage := 5 } } = .configWait ∧
    ({ full with start := { full.start with idValid := true } } : State).start.idValid = true ∧ served full = .all ∧
    (after (exec (.start 3 0) (mgmt 4))).out = [.status (some 3) .descInvalid] := by decide +kernel

/-- A write of three bytes of configuration for connection 3 under way. -/
def flashing : State := { mgmt 4 with start := { full.start with flashWrite := some { region := 2, img := [1, 2, 3], conn := some 3 } } }

theorem test_flashTick : FlashTick flashing { region := 2, img := [1, 2, 3], conn := some 3 } ∧ served flashing = .all ∧
    (after (step flashing)).out = [.status (some 3) .ok] :=
  ⟨⟨by decide +kernel, rfl, by decide, rfl⟩, by decide +kernel, by decide +kernel⟩

/-- A firmware image is either valid or not, a key is the debug key or not; each case is one of the clauses. -/
theorem test_managementPort_images (img pub : Bytes) : ((fwInMem img).isSome = true ∨ fwInMem img = none) ∧
    (sha256 pub = Config.debugKeyHash ∨ sha256 pub ≠ Config.debugKeyHash) := by
  constructor
  · cases fwInMem img <;> simp
  · exact Classical.em _

theorem test_scanAndSensors : full.pow.rise = true ∧ full.pow.rails = 6 ∧ full.extest = false ∧ full.pow.vin = true ∧ full.start.mode ≠ .scanHold ∧ full.start.mode ≠ .off ∧
    ({ full with start := { mode := .scanHold } } : State).start.mode = .scanHold ∧ sensorFitted 63 = false ∧ sensorFitted 0x36 = true ∧
    mget? ({ full with pow := { sensors := [(0x36, 0x1234)] } } : State).pow.sensors 0x36 = some 0x1234 ∧
    ({ full with pow := { alert := true } } : State).pow.alert = true ∧ full.pow.alert = false ∧
    beyond (effLimit full.pow) 0 60001 = true ∧ beyond (effLimit full.pow) 0 60000 = false ∧
    ({ full with pow := { alertMask := 1 } } : State).pow.alertMask.getLsbD 0 = true ∧
    (after (exec (.smbusReadSensor 0x36) { full with pow := { sensors := [(0x36, 0x1234)] } })).out = [.smbus [0x34, 0x12]] ∧
    (after (exec (.extest [1, 0]) full)).out = [.jtag [0]] := by decide +kernel

/-- Service port 1 with its link up, and queue pair 8191 of it. -/
def qpA : Qp := { sess := none, since := 0, hello := none, error := false }
def ethState (q : Option Qp) (s : State := full) : State :=
  { s with eths := [(1, { link := 2 })], obj := { s.obj with qps := match q with | some q => [(8191, q)] | none => [] } }

theorem works_of {s : State} {n : Nat} {q : Qp} (h : (!pllDown s 1 && decide (n < 8192) && (mget s.eths {} (n / 4096)).link == 2 &&
    decide ((mget s.eths {} (n / 4096)).pause = none) && (s.start.stage == 3 || s.start.stage == 4) &&
    decide (s.start.mode = .normal) && decide (mget? s.obj.qps n = some q) && !q.error) = true) : Works s n q := by
  simp only [Bool.and_eq_true, decide_eq_true_eq, Bool.not_eq_true', Bool.or_eq_true, beq_iff_eq] at h
  obtain ⟨⟨⟨⟨⟨⟨⟨h1, h2⟩, h3⟩, h4⟩, h5⟩, h6⟩, h7⟩, h8⟩ := h
  exact ⟨h1, h2, ⟨h3, h4, h5, h6⟩, h7, h8⟩

theorem test_works : Works (ethState (some qpA)) 8191 qpA := works_of (by decide +kernel)

/-- A session with a ticket, of which fewer than 16 queue pairs exist, and one with 16. -/
def sessA : Session := { gen := 1, client := 0, rights := 7, renewed := 0, admin := 5, ticket := List.replicate 16 9, qps := [] }
def withSess (k : Session) (s : State := full) : State := { s with obj := { s.obj with sess := [(1023, k)] } }
def ticketA : Bytes := leBytes 4 (handleOf .session 1 1023) ++ List.replicate 16 9

/-- A request for a reliable connection with the largest MTU and the most resources, and frames for port 1: VLAN 9, to the
port's own address and to a group. -/
def cmA (priv : Bytes) : CmRequest := { transport := .rc, mtu := 4096, resources := 16, peer := [10, 0, 0, 7], priv := priv }
def cfgNet : Cfg := { cfgA with net := { ip4 := [[], [10, 0, 0, 1], []], vlan := [0, 9, 0], pfcOn := true, pfcPrio := 3 } }
def portState (q : Option Qp := none) (r : Dword := 0) (e : Eth := { link := 2 }) : State :=
  { ethState q with start := { full.start with cfg := some cfgNet }, refCnt := r, eths := [(1, e)] }
def groupFrame (proto : EthProto) : EthFrame := { fcsOk := true, dst := [0x33, 0x33, 0, 0, 0, 1], vlan := 9, ip := [10, 0, 0, 1], proto := proto }

theorem test_servicePorts : (mget full.eths {} 1).link ≠ 2 ∧ (mget portState.eths {} 1).link = 2 ∧ HubRuns portState ∧
    8191 / 4096 = 1 ∧ (netCfg portState).pfcOn = true ∧ (netCfg portState).pfcPrio = 3 ∧
    fld (mget (after (exec (.ethFrameReceive 1 { groupFrame .arp with fcsOk := false }) portState)).eths {} 1).cnt.toNat 63 48 = 1 ∧
    fld (mget (after (exec (.ethFrameReceive 1 { groupFrame .arp with vlan := 8 }) portState)).eths {} 1).cnt.toNat 15 0 = 1 ∧
    fld (mget (after (exec (.ethFrameReceive 1 { groupFrame .arp with len := 9217 }) portState)).eths {} 1).cnt.toNat 15 0 = 1 ∧
    (∀ pr ∈ [EthProto.routerAdvert [1] true, .arp, .roce 8191 true true, .roce 8191 false true, .roce 8191 false false],
      forPort portState 1 (groupFrame pr) = true) ∧
    (subMod 64 (now (portState none 4999)) 0 < 5000 ∧ 5000 ≤ subMod 64 (now (portState none 5000)) 0) ∧
    (after (exec (.ethFrameReceive 1 (groupFrame (.roce 8191 true true))) portState)).out = [.cnp 8191 0] ∧
    (after (exec (.ethFrameReceive 1 (groupFrame (.roce 8191 true true)))
      (portState none 4999 { link := 2, cnps := [(8191, 0)] }))).out = [] ∧
    (after (exec (.ethFrameReceive 1 (groupFrame (.roce 8191 false false))) (portState (some qpA)))).out = [.nak 8191 .invalid] ∧
    (mget (after (exec (.pfcPauseReceive 1 { prio := 3, quanta := 65535 }) portState)).eths {} 1).pause = some (0, 4195) ∧
    (after (exec (.pfcPauseReceive 1 { prio := 3, quanta := 0 }) (portState none 0 { link := 2, pause := some (0, 9), txq := [.ack 1] }))).out =
      [.ack 1] := by decide +kernel

theorem test_servicePorts_connections : full.start.mode = .normal ∧ RindRuns (ethState none) ∧
    (mget? (ethState (some qpA)).obj.qps 8191).isSome = true ∧ mget? (ethState none).obj.qps 8191 = none ∧
    (let s := ethState none (withSess sessA)
     resolve s .session (leVal (sliceB ticketA 0 4)) = some 1023 ∧ sess? s 1023 = some sessA ∧ 20 ≤ ticketA.length ∧
      sliceB ticketA 4 16 = sessA.ticket ∧ sessA.qps.length < 16 ∧ (∃ b ∈ ticketA, b ≠ 0) ∧
      ((sess? (after (exec (.cmReq 8191 (cmA ticketA)) s)) 1023).map (·.qps)) = some [8191] ∧
      (after (exec (.cmReq 8191 { cmA ticketA with resources := 17 }) s)).out = [.cmRej 8191]) ∧
    16 ≤ ({ sessA with qps := List.range 16 } : Session).qps.length ∧
    sliceB (leBytes 4 (handleOf .session 1 1023) ++ List.replicate 16 8) 4 16 ≠ sessA.ticket := by decide +kernel

theorem test_portServes : PortServes (ethState none) 1 :=
  ⟨by decide +kernel, by decide +kernel, .inr (by decide), rfl⟩

/-- A client whose key is one byte, and the first place of the admin rings. -/
def ringA : AdminRing := { ring := 0, cpl := 2048, k := 4 }
def clientState (h : Option (Bytes × Dword × Bytes)) : State :=
  let cfg := { cfgA with clients := [(sha256 [5], 7)] }
  ethState (some { qpA with hello := h }) { full with start := { full.start with cfg := some cfg } }

theorem test_sessions :
    (qpA.sess = none ∧ qpA.hello = none) ∧ Works (clientState (some ([5], 7, []))) 8191 { qpA with hello := some ([5], 7, []) } ∧
    decide (ringPlaced (clientState none) ringA = true ∧ clientOf (clientState none) [6] = none ∧ clientOf (clientState none) [5] = some (0, 7) ∧
      (7 : BitVec 3).getLsbD 0 = true ∧ (clientState none).obj.sess.length < 1024 ∧ nextIdx (clientState none) .session = some 0 ∧
      nextIdx (clientState none) .queue = some 0) = true ∧
    (let q := { qpA with sess := some 1023 }
     let s := ethState (some q) (withSess sessA)
     Works s 8191 q ∧ sess? s 1023 = some sessA) ∧
    decide (subMod 64 (now { full with refCnt := 199999999 }) sessA.renewed < 200000000 ∧
      200000000 ≤ subMod 64 (now { full with refCnt := 200000000 }) sessA.renewed ∧
      100000000 ≤ subMod 64 (now { full with refCnt := 100000000 }) qpA.since ∧
      subMod 64 (now { full with refCnt := 99999999 }) qpA.since < 100000000) = true := by
  refine ⟨⟨rfl, rfl⟩, works_of ?_, ?_, ⟨works_of ?_, ?_⟩, ?_⟩ <;> decide +kernel

/-- A signature verifies or not; and the one context of the session's state is active. -/
theorem test_sessions_cases (pub msg sig : Bytes) : Config.slhVerify pub msg sig = false ∨ Config.slhVerify pub msg sig = true := by
  cases Config.slhVerify pub msg sig <;> simp

theorem test_sessions_contexts : ∀ x y, ctx? full x = some y → y.state = 1 ∨ y.state = 2 := by
  intro x y h
  have h0 : ∀ kv ∈ full.obj.ctxs, kv.2.state = 1 := by decide +kernel
  left
  unfold ctx? mget? at h
  cases hf : full.obj.ctxs.lookup x with
  | none => rw [hf] at h; cases h
  | some z =>
    rw [hf] at h
    cases h
    simp only [full, List.lookup] at hf
    split at hf
    · cases hf; rfl
    · cases hf

/-- A memory object of one unit at 0x100000 open for every operation, held by a context of session 1023. -/
def memA : MemObj := { state := 1, gen := 2, base := 0x100000, owner := 0, rdma := 7, place := 0, len := 1, refs := 0, tenant := 0 }
def rdmaState (bad : List Nat) : State :=
  let s := ethState (some { qpA with sess := some 1023 }) (withSess sessA)
  { s with obj := { s.obj with ctxs := [(0, { ctxA with sess := 1023, mems := [8] })], mems := [(8, memA)] }, bad := bad }
def keyA : Word := BitVec.ofNat 32 (handleOf .memory 2 8)

theorem test_rdmaOperations : Works (rdmaState []) 8191 { qpA with sess := some 1023 } ∧
    (let s := rdmaState []
     let q : Qp := { qpA with sess := some 1023 }
     decide (fld keyA.toNat 31 28 ≠ 2 ∧ rdmaOk s q keyA.toNat 0x10FFF8 8 1 = true ∧ rdmaOk s q keyA.toNat 0x10FFF9 8 1 = false ∧
      rdmaOk s q keyA.toNat 0x10FFF8 8 0 = true ∧ isBad s 0x10FFF8 8 = false ∧ isBad (rdmaState [0x10FFF8]) 0x10FFF8 8 = true ∧
      rdmaOk s q keyA.toNat 0x110000 8 0 = false ∧ writeWaits s 0x10FFF8 8 = false ∧ asleep s 0x10FFF8 8 = false ∧ q.reqs = [] ∧ q.blocks = none ∧ 0x10FFFC % 8 ≠ 0 ∧ rdmaOk s q keyA.toNat 0x110000 8 2 = false ∧
      rdmaOk s q keyA.toNat 0x10FFF8 8 2 = true ∧ rdNum s 0x10FFF8 8 = (0 : Dword).toNat ∧ rdNum s 0x10FFF8 8 ≠ (1 : Dword).toNat ∧
      rdNum (after (exec (.fetchAndAdd 8191 keyA 0x10FFF8 5) s)) 0x10FFF8 8 = 5) = true) := by
  refine ⟨works_of ?_, ?_⟩ <;> decide +kernel

/-- A memory object of one unit in the cave, with all channels parked: a READ of it waits, at the head of the queue pair. -/
def sleepy (q : Qp) : State :=
  let s := ethState (some { q with sess := some 1023 }) (withSess sessA)
  { s with
    obj := { s.obj with ctxs := [(0, { ctxA with sess := 1023, mems := [8] })], mems := [(8, { memA with base := 0x040000000000 })] }
    memCtl := { s.memCtl with parked := 0xFFFF } }

theorem test_rdmaOperations_waiting :
    (let q : Qp := { qpA with sess := some 1023 }
     decide (rdmaOk (sleepy qpA) q keyA.toNat 0x040000000000 8 0 = true ∧ asleep (sleepy qpA) 0x040000000000 8 = true) = true) ∧
    (let q : Qp := { qpA with sess := some 1023, reqs := [.read keyA 0x040000000000 8] }
     Works (sleepy q) 8191 q ∧ decide (rdmaOk (sleepy q) q keyA.toNat 0x040000000000 8 0 = true ∧ asleep (sleepy q) 0x040000000000 8 = true ∧
      ((mget? (after (exec (.rdmaWrite 8191 keyA 0x040000000000 [1]) (sleepy q))).obj.qps 8191).map fun q => q.reqs.length) = some 2) = true) := by
  refine ⟨?_, works_of ?_, ?_⟩ <;> decide +kernel

theorem test_rdmaOperations_resources : 16 ≤ ((List.replicate 16 (RdmaReq.read keyA 0 8)).filter takesResource).length ∧
    ((List.replicate 15 (RdmaReq.read keyA 0 8) ++ [RdmaReq.write keyA 0 [1]]).filter takesResource).length < 16 := by decide +kernel

/-- A HELLO sent as a message, and a CLOSE on the queue pair of a session. -/
theorem test_rdmaSend :
    ((mget? (after (exec (.rdmaSend 8191 ([1, 0, 0, 0] ++ leBytes 4 40 ++ List.replicate 32 5 ++ leBytes 8 7)) (ethState (some qpA)))).obj.qps
      8191).bind (·.hello)).isSome = true ∧
    sess? (after (exec (.rdmaSend 8191 [5, 0, 0, 0, 0, 0, 0, 0]) (rdmaState []))) 1023 = none := by decide +kernel

/-! ## Queues, the object manager, the job, the cores' residents and register writes -/

/-- An entry of a queue from its 64-bit words by offset. -/
def entryOf (ws : List (Nat × Nat)) : Bytes := (List.range 16).flatMap fun i => leBytes 8 ((ws.lookup (8 * i)).getD 0)

/-- The entry of an operation with the words of its body from 0x40 on. -/
def opEntry (opc : Nat) (body : List Nat) : Bytes :=
  leBytes 8 (256 + opc) ++ List.replicate 56 0 ++ body.flatMap (leBytes 8) ++ List.replicate (64 - 8 * body.length) 0

/-- Command 5 of a queue, and queues with room for 16 commands that hold it: an admin queue of session 0, and one of context 0. -/
def cmdA (e : Bytes) : Cmd :=
  { seq := 5, entry := e, started := false, st := none, result := 0, left := 0, rerun := false, fault := none
    slot := false, sat := none, sigOk := true, refs := true, ran := false, param := [], waits := false }
def queueOf (ctx : Option Nat) (cs : List Cmd) : Queue :=
  { state := if ctx.isSome then 1 else 2, gen := 1, k := 4, prio := 0, ctx := ctx, sess := 0, ring := 0x200000, cpl := 0x201000
    ri := 5, adm := 6, started := 5, cmds := cs, bell := none, slot := true, stamp := 0 }

/-- Full service with queues, context 0 that holds memory object 8 (0x100000, one unit) and fence 2, and context 1 of session 1. -/
def memB : MemObj := { state := 1, gen := 2, base := 0x100000, owner := 0, rdma := 7, place := 0, len := 1, refs := 0, tenant := 0 }
def fenceB : Fence := { gen := 3, value := 0, status := .ok, firstErr := .ok, owner := 0, waiters := 0, refs := 0 }
def ctxB : Context := { ctxA with mems := [8], fences := [2] }
def objState (qs : Map Queue) : State :=
  { full with
    obj := { full.obj with
      ctxs := [(0, ctxB), (1, { ctxA with sess := 1 })], queues := qs, mems := [(8, memB)], fences := [(2, fenceB)]
      ctxPool := { fresh := 2 }, memPool := { fresh := 9 }, fencePool := { fresh := 3 }, queuePool := { fresh := 40 } } }

/-- Context queue 4 and admin queue 9 with command 5. -/
def onQueue4 (c : Cmd) : State := objState [(4, queueOf (some 0) [c])]
def onQueue9 (c : Cmd) (more : Map Queue := []) : State := objState ((9, queueOf none [c]) :: more)

theorem mem_of_mget? {α : Type} {m : Map α} {k : Nat} {v : α} (h : mget? m k = some v) : (k, v) ∈ m := by
  unfold mget? at h
  induction m with
  | nil => cases h
  | cons x m ih =>
    obtain ⟨a, y⟩ := x
    simp only [List.lookup] at h
    split at h
    · next e => cases h; rw [beq_iff_eq] at e; subst e; exact List.mem_cons_self
    · exact List.mem_cons_of_mem _ (ih h)

/-- Whether the hypotheses of `Simple` hold. -/
def isSimple (s : State) (q : Nat) (x : Queue) (c : Cmd) : Bool :=
  !pllDown s 1 && decide (queue? s q = some x) && decide (x.state ≠ 3) && decide (x.cmds.map fun d => d.seq).Nodup && decide (c ∈ x.cmds) &&
    decide (c.st = none) && !eWaitEn c.entry && decide (eSigFence c.entry = 0) && decide (eNobj c.entry = 0) && !c.slot && !c.waits &&
    (s.obj.queues.all fun kv => kv.2.cmds.all fun d => !eWaitEn d.entry) && decide (s.turn.run = none) &&
    decide (regionOf (cplAt x) = .hbm) && !writeWaits s (cplAt x) 16

theorem simple_of {s : State} {q : Nat} {x : Queue} {c : Cmd} (h : isSimple s q x c = true) : Simple s q x c := by
  simp only [isSimple, Bool.and_eq_true, decide_eq_true_eq, Bool.not_eq_true', List.all_eq_true] at h
  obtain ⟨⟨⟨⟨⟨⟨⟨⟨⟨⟨⟨⟨⟨⟨h0, h1⟩, h2⟩, h3⟩, h4⟩, h5⟩, h6⟩, h7⟩, h8⟩, h9⟩, hw⟩, h10⟩, h11⟩, h12⟩, h13⟩ := h
  exact ⟨h0, h1, h2, h3, h4, h5, ⟨h6, h7, h8⟩, ⟨h9, hw⟩, fun r y hy d hd => h10 _ (mem_of_mget? hy) d hd, h11, h12, h13⟩

/-- Whether the hypotheses of `AdminNext` hold. -/
def isNext (s : State) (q : Nat) (x : Queue) (c : Cmd) (opc : Nat) : Bool :=
  isSimple s q x c && decide (x.ctx = none) && decide (startable s x = some c) && decide (eOpc c.entry = opc)

theorem next_of {s : State} {q : Nat} {x : Queue} {c : Cmd} {opc : Nat} (h : isNext s q x c opc = true) : AdminNext s q x c opc := by
  simp only [isNext, Bool.and_eq_true, decide_eq_true_eq] at h
  exact ⟨simple_of h.1.1.1, h.1.1.2, h.1.2, h.2⟩

/-- An admin command next in queue 9, with other queues. -/
theorem adminNext_of {opc : Nat} {body : List Nat} {more : Map Queue}
    (h : isNext (onQueue9 (cmdA (opEntry opc body)) more) 9 (queueOf none [cmdA (opEntry opc body)]) (cmdA (opEntry opc body)) opc = true) :
    AdminNext (onQueue9 (cmdA (opEntry opc body)) more) 9 (queueOf none [cmdA (opEntry opc body)]) (cmdA (opEntry opc body)) opc := next_of h

/-! ### Doorbells -/

/-- Empty queue 4 of context 0, with a slot or not; a client of session 0 and one of another. -/
def bellState (x : Queue) : State :=
  let s := objState [(4, x)]
  { s with obj := { s.obj with
    qps := [(1, { sess := some 0, since := 0, hello := none, error := false }),
      (2, { sess := some 1, since := 0, hello := none, error := false })]
    sess := [(0, { gen := 1, client := 0, rights := 7, renewed := 0, admin := 9, ticket := [], qps := [] })] } }
def empty4 : Queue := { queueOf (some 0) [] with ri := 6 }
def bell (pi : Nat) (gen : Nat := 1) : Dword := BitVec.ofNat 64 (gen * 2 ^ 56 + pi)

/-- The ring place of command 6 holds a SIGNAL entry. -/
def rung : State := let s := bellState empty4; { s with mem := putBytes s.mem (0x200000 + 128 * 6) (opEntry 3 []) }

theorem test_doorbells :
    (let s := bellState empty4
     queue? s 4 = some empty4 ∧ (sess? s empty4.sess).isSome = true ∧ bellOpen s .rind 4 = true ∧ bellOpen s (.client 1) 4 = true ∧
      bellOpen s (.client 2) 4 = false ∧ bellOpen s (.program 0) 4 = true ∧ empty4.gen.toNat ≠ fld (bell 7 2).toNat 63 56 ∧
      empty4.gen.toNat = fld (bell 7).toNat 63 56 ∧ empty4.state ≠ 3 ∧ empty4.slot = true) ∧
    (let s := bellState { empty4 with ctx := some 1 }
     bellOpen s (.program 0) 4 = false ∧ (coreOf s 0).ctx = some 0 ∧ ctx? s 0 = some ctxB ∧ ctxB.state = 1 ∧ ctxB.dying = false) ∧
    (2 ^ 31 ≤ subMod 32 5 empty4.adm.toNat ∧ subMod 32 23 empty4.adm.toNat < 2 ^ 31 ∧ 2 ^ empty4.k < subMod 32 23 empty4.ri.toNat ∧
      subMod 32 6 empty4.adm.toNat = 0 ∧ subMod 32 6 empty4.ri.toNat ≤ 2 ^ empty4.k) ∧
    (let e := rdBytes rung (empty4.ring + 128 * (empty4.adm.toNat % 2 ^ empty4.k)) 128
     subMod 32 7 empty4.adm.toNat = 1 ∧ subMod 32 7 empty4.ri.toNat ≤ 2 ^ empty4.k ∧ empty4.cmds = [] ∧
      admitStatus rung empty4 (empty4.ring + 128 * (empty4.adm.toNat % 2 ^ empty4.k)) e = none ∧ eWaitEn e = false ∧ eSigFence e = 0 ∧
      eNobj e = 0 ∧ (queue? (after (exec (.doorbell .rind 4 (bell 7)) rung)) 4).map (fun y => y.cmds.length) = some 1) ∧
    (empty4.slot = true ∧ ({ empty4 with slot := false } : Queue).bell = none) := by decide +kernel

/-- A queue and a context with work that wait for a slot; 64 queues with slots, of which queue 9 has waited longest, and one
that needs a slot; and an index whose quarantine of 400,000,000 ticks has just ended, or is about to. -/
def waits4 : Queue := { queueOf (some 0) [cmdA (opEntry 3 [])] with slot := false }
def crowded : State :=
  let s := objState (((4, waits4) :: (List.range 64).map fun n => (5 + n, { queueOf (some 0) [] with stamp := if n = 4 then 1 else 2 })))
  s
/-- Two queues that wait for the slot that queue 9 would give up. -/
def contended : State := modObj crowded fun o => { o with queues := (3, waits4) :: o.queues }
def inQuar (tick : Nat) : State := { full with refCnt := BitVec.ofNat 64 tick, obj := { full.obj with memPool := { fresh := 9, quar := [(8, 0)] } } }

theorem test_slots :
    (let s := bellState waits4
     waits4.slot = false ∧ waits4.cmds.any Cmd.waiting = true ∧ waits4.bell = none ∧ (s.obj.queues.filter fun kv => kv.2.slot).length < 64 ∧
      mayTakeSlot s true 4 = true) ∧
    (let s0 := bellState waits4
     let s := { s0 with obj := { s0.obj with ctxs := [(0, { ctxB with slot := false })] } }
     ctx? s 0 = some { ctxB with slot := false } ∧ (4, waits4) ∈ s.obj.queues ∧ (s.obj.ctxs.filter fun kv => kv.2.slot).length < 48 ∧
      mayTakeSlot s false 0 = true) ∧
    (slotContend contended true = true ∧ dutyMode contended 0 = 0 ∧ arbPick contended (slotWaiters contended true) ≠ some 4 ∧
      mayTakeSlot contended true 4 = false) ∧
    (slotNeeded crowded true = true ∧ dutyMode crowded 4 = 0 ∧ (oldest (evictable crowded true)).map Prod.fst = some 9 ∧
      slotNeeded full true = false) ∧
    ((poolOf (inQuar 400000000).obj .memory).quar.find? (fun y => y.1 == 8) = some (8, 0) ∧
      (inQuar 400000000).obj.quar.toNat ≤ subMod 64 (now (inQuar 400000000)) 0 ∧ commandNames (inQuar 400000000) .memory 8 = false ∧
      subMod 64 (now (inQuar 399999999)) 0 < (inQuar 399999999).obj.quar.toNat) := by decide +kernel

/-! ### Commands of context queues -/

def sig4 : Cmd := cmdA (opEntry 3 [])

/-- A launch of two blocks of one group of 32 registers on cores 3 and 255, from 0x4000, parameters at 0x8000; with a record of
a quantised tensor, and one that names a core that the context does not have. -/
def launchE (qwV : Nat := 0) (entry : Nat := 0x4000) : Bytes :=
  opEntry 1 [entry, 2 ^ 32 + 1 * 2 ^ 23 + 32 * 2 ^ 15, 8, 0, 0, 2 ^ 63, 0x8000, qwV * 2 ^ 51 + 0x5000]

/-- A launch that has been handed out and whose blocks have ended. -/
def ended (qwV : Nat) : Cmd := { cmdA (launchE qwV) with started := true, ran := true }

/-- The record of the quantised tensor with RERUN at 0x10000, and a core whose saturation count is above the limit of 9. -/
def satState : State :=
  let s := onQueue4 (ended 1)
  { s with
    mem := putBytes s.mem 0x10000 (leBytes 8 0x1000 ++ List.replicate 32 0 ++ leBytes 8 9)
    qw := { s.qw with tblBase := 0x10000 }
    cores := [(3, { ({} : Core) with press := { ({} : Core).press with satOther := 10 } })] }

theorem test_queueCommands_simple : Simple (onQueue4 sig4) 4 (queueOf (some 0) [sig4]) sig4 ∧
    (∀ e ∈ [launchE, launchE 0 0x4001], Simple (onQueue4 { cmdA e with started := true }) 4 (queueOf (some 0) [{ cmdA e with started := true }]) { cmdA e with started := true }) ∧
    (∀ e ∈ [opEntry 2 [0x2000], opEntry 2 [], opEntry 3 []],
      Simple (onQueue4 { cmdA e with started := true }) 4 (queueOf (some 0) [{ cmdA e with started := true }]) { cmdA e with started := true }) ∧
    Simple (onQueue4 (ended 0)) 4 (queueOf (some 0) [ended 0]) (ended 0) ∧ Simple satState 4 (queueOf (some 0) [ended 1]) (ended 1) ∧
    Simple (onQueue4 { ended 0 with left := 2 }) 4 (queueOf (some 0) [{ ended 0 with left := 2 }]) { ended 0 with left := 2 } := by
  refine ⟨simple_of ?_, fun e h => simple_of ?_, fun e h => simple_of ?_, simple_of ?_, simple_of ?_, simple_of ?_⟩
  · decide +kernel
  · revert e; decide +kernel
  · revert e; decide +kernel
  all_goals decide +kernel

theorem test_queueCommands :
    (let s := onQueue4 sig4
     startable s (queueOf (some 0) [sig4]) = some sig4 ∧ (rivals s 4 sig4).length ≤ 1 ∧ (queueOf (some 0) [sig4]).ctx = some 0 ∧ sig4.started = false) ∧
    (let l := cmdA launchE
     let s := objState [(4, queueOf (some 0) [l]), (5, queueOf (some 0) [l])]
     startable s (queueOf (some 0) [l]) = some l ∧ 2 ≤ (rivals s 5 l).length ∧ dutyMode s 0 = 0 ∧ arbPick s (rivals s 5 l) ≠ some 5) ∧
    (let s := onQueue4 { cmdA launchE with started := true }
     ctx? s 0 = some ctxB ∧ eOpc launchE = 1 ∧ launchBad ctxB (launchE 0 0x4001) = true ∧ launchBad ctxB launchE = false ∧
      memCheck s (lParam launchE) 64 = none ∧ isBad s (lParam launchE) 64 = false ∧ launchCores launchE = [3, 255] ∧
      ((coreOf (after (exec (.launch 4 5) s)) 255).admQ.map (·.bid)) = [1]) ∧
    (eOpc (opEntry 2 [0x2000]) = 2 ∧ bitOf (eBody (opEntry 2 [0x2000]) 0) 13 = true ∧ bitOf (eBody (opEntry 2 []) 0) 13 = false ∧ eOpc (opEntry 3 []) = 3) ∧
    (eOpc (ended 0).entry = 1 ∧ (ended 0).ran = true ∧ (ended 0).left = 0 ∧ launchBusy (onQueue4 (ended 0)) 4 5 = false ∧ launchBusy satState 4 5 = false ∧
      launchBusy (modCore satState 3 fun k => { k with ladleQ := [{ core := none, cmd := some (4, 5), ctx := 0, order := 0, prev := none, words := [], src := (0, 0), n := 0 }] }) 4 5 = true ∧
      lQwV (ended 0).entry = false ∧ lQwV (ended 1).entry = true ∧
      fld (rdNum satState (qwRecord satState (ended 1).entry) 8) 13 12 = 1 ∧ (ended 1).rerun = false ∧
      satAbove satState (ranOn (ended 1).entry) (fld (rdNum satState (qwRecord satState (ended 1).entry + 0x28) 8) 31 0) = true ∧
      satAbove satState (ranOn (ended 1).entry) 10 = false ∧ ({ ended 0 with left := 2 } : Cmd).left ≠ 0) := by decide +kernel

/-! ### Admin commands on contexts and queues -/

def hCtx (i : Nat) : Nat := handleOf .context 1 i
def hMem : Nat := handleOf .memory 2 8
def hFence : Nat := handleOf .fence 3 2

/-- Command 5 with its operation and body, next in queue 9, with other queues. -/
def isNextOp (opc : Nat) (body : List Nat) (more : Map Queue := []) : Bool :=
  isNext (onQueue9 (cmdA (opEntry opc body)) more) 9 (queueOf none [cmdA (opEntry opc body)]) (cmdA (opEntry opc body)) opc

theorem test_adminContexts_next :
    (∀ op ∈ onContexts, ∀ h ∈ [0, hCtx 0, hCtx 1],
      AdminNext (onQueue9 (cmdA (opEntry op.1 [h]))) 9 (queueOf none [cmdA (opEntry op.1 [h])]) (cmdA (opEntry op.1 [h])) op.1) ∧
    (∀ x ∈ [(0x20, [7]), (0x20, [7, 1]), (0x22, [hCtx 0, 0x100000, 0x108000, 4]), (0x22, [hCtx 0, 0x100000, 0x108000, 3]),
        (0x29, [hCtx 0, hMem * 2 ^ 32 + 0xFFB0]), (0x29, [hCtx 0, hMem * 2 ^ 32 + 0xFFB1]), (0x29, [hCtx 0, 0])],
      AdminNext (onQueue9 (cmdA (opEntry x.1 x.2))) 9 (queueOf none [cmdA (opEntry x.1 x.2)]) (cmdA (opEntry x.1 x.2)) x.1) ∧
    (∀ x ∈ [(0x23, [handleOf .queue 1 12]), (0x2A, [handleOf .queue 1 12, 5]), (0x2A, [handleOf .queue 1 12, 6]),
        (0x2A, [handleOf .queue 1 12, 4])],
      AdminNext (onQueue9 (cmdA (opEntry x.1 x.2)) [(12, queueOf (some 0) [sig4])]) 9 (queueOf none [cmdA (opEntry x.1 x.2)]) (cmdA (opEntry x.1 x.2)) x.1) := by
  refine ⟨fun op h1 h h2 => adminNext_of ?_, fun x h => adminNext_of ?_, fun x h => adminNext_of ?_⟩
  · have : ∀ o ∈ onContexts.map Prod.fst, ∀ h ∈ [0, hCtx 0, hCtx 1], isNextOp o [h] = true := by decide +kernel
    exact this op.1 (List.mem_map_of_mem h1) h h2
  · revert x; decide +kernel
  · revert x; decide +kernel

theorem test_adminContexts :
    (let s := onQueue9 sig4
     resolve s .context (hCtx 2) = none ∧ resolve s .context (hCtx 0) = some 0 ∧ resolve s .context (hCtx 1) = some 1 ∧ ctx? s 0 = some ctxB ∧
      ctx? s 1 = some { ctxA with sess := 1 } ∧ nextIdx s .context = some 2 ∧ nextIdx s .queue = some 40 ∧ queue? s 40 = none ∧
      leVal (sliceB (opEntry 0x20 [7]) 0x48 32) = 0 ∧ leVal (sliceB (opEntry 0x20 [7, 1]) 0x48 32) ≠ 0 ∧
      memHeld s (queueOf none [sig4]) (fld (eBody (opEntry 0x20 [7, 1]) 0x28) 31 0) = false ∧
      (∀ kv ∈ s.obj.queues, kv.2.ctx ≠ some 0) ∧
      nextIdx (modObj s fun o => { o with ctxPool := { fresh := 4096 } }) .context = none) ∧
    (let s := objState [(9, queueOf none [cmdA (opEntry 0x21 [hCtx 0])])]
     let s := { s with obj := { s.obj with ctxs := [(0, ctxA)] } }
     ctx? s 0 = some ctxA ∧ ctxA.mems = [] ∧ ctxA.fences = [] ∧ ctx? (after (exec (.ctxDestroy 9) s)) 0 = none) ∧
    (let s := onQueue9 sig4
     ringOk s ctxB 0x100000 (128 * 2 ^ 4) = true ∧ ringOk s ctxB 0x108000 (16 * 2 ^ 4) = true ∧ 0x100000 % 128 = 0 ∧ 0x108000 % 16 = 0) ∧
    (let e := opEntry 0x2A [handleOf .queue 1 12, 5]
     let s := onQueue9 (cmdA e) [(12, queueOf (some 0) [sig4])]
     resolve s .queue (handleOf .queue 1 12) = some 12 ∧ queue? s 12 = some (queueOf (some 0) [sig4]) ∧ 2 ^ 31 ≤ subMod 32 5 6 ∧
      2 ^ 31 ≤ subMod 32 4 6 ∧ subMod 32 6 6 < 2 ^ 31 ∧ sig4.started = false ∧ writeWaits s (cplAt (queueOf (some 0) [sig4])) 16 = false ∧
      (queue? (after (exec (.abort 9) s)) 12).map (fun y => y.ri) = some 6) ∧
    (let s := onQueue9 sig4
     memHeld s (queueOf none [sig4]) (fld 0 63 32) = false ∧ memHeld s (queueOf none [sig4]) (fld (hMem * 2 ^ 32 + 0xFFB0) 63 32) = true ∧
      mem? s (handleIdx .memory hMem) = some memB ∧ memB.len * 65536 < fld (hMem * 2 ^ 32 + 0xFFB1) 31 0 + 80 ∧ 0xFFB0 + 80 ≤ memB.len * 65536 ∧
      regionOf (memB.base + 0xFFB0) = .hbm ∧ writeWaits s (memB.base + 0xFFB0) 80 = false ∧
      memB.base + 0xFFB0 + 80 ≤ cplAt (queueOf none [sig4])) := by decide +kernel

/-- A QUERY whose 80 bytes go to a parked channel waits (R327). -/
theorem test_query_waits :
    let s := onQueue9 (cmdA (opEntry 0x29 [hCtx 0, hMem * 2 ^ 32]))
    let s := { s with obj := { s.obj with mems := [(8, { memB with base := 0x040000000000 })] }, memCtl := { s.memCtl with parked := 0xFFFF } }
    writeWaits s 0x040000000000 80 = true ∧ (queue? (after (exec (.query 9) s)) 9).map (fun y => y.cmds.length) = some 1 := by
  decide +kernel

/-! ### Admin commands on memory objects and fences -/

theorem test_adminMemory_next :
    ∀ x ∈ [(0x24, [hCtx 0, 0, 0]), (0x24, [hCtx 0, 65537, 4]), (0x24, [hCtx 0, 65537, 3]), (0x25, [hCtx 0, hMem, 0]), (0x25, [hCtx 0, hMem, 1]),
        (0x26, [hCtx 0, hCtx 1, hMem]), (0x27, [hCtx 0, 9]), (0x28, [hCtx 0, hFence])],
      AdminNext (onQueue9 (cmdA (opEntry x.1 x.2))) 9 (queueOf none [cmdA (opEntry x.1 x.2)]) (cmdA (opEntry x.1 x.2)) x.1 ∧
      OwnCtx (onQueue9 (cmdA (opEntry x.1 x.2))) (queueOf none [cmdA (opEntry x.1 x.2)]) (cmdA (opEntry x.1 x.2)) 0 ctxB ∧
      keysRise (onQueue9 (cmdA (opEntry x.1 x.2))).obj.ctxs = true := by
  intro x h
  refine ⟨adminNext_of ?_, ⟨?_, ?_, ?_⟩, ?_⟩ <;> revert x <;> decide +kernel

theorem test_adminMemory :
    (let s := onQueue9 sig4
     placeOk s 3 0 0x0A0000000000 (65536 * ceilDiv 65537 65536) = true ∧ placeOk s 3 0 0x0A0000010001 (65536 * ceilDiv 65537 65536) = false ∧
      placeOk s 0 0 0x0FFFF0 65536 = false ∧ placeOk s 0 0 0x110000 65536 = true ∧ nextIdx s .memory = some 9 ∧ nextIdx s .fence = some 3 ∧
      nextIdx (modObj s fun o => { o with fencePool := { fresh := 65536 } }) .fence = none ∧
      resolve s .memory hMem = some 8 ∧ mem? s 8 = some memB ∧ 8 ∈ ctxB.mems ∧ 8 ∉ ctxA.mems ∧ memHolders s 8 = [0] ∧ memB.refs = 0 ∧
      ({ memB with refs := 1 } : MemObj).refs ≠ 0 ∧ ({ memB with owner := 1 } : MemObj).owner ≠ 0 ∧
      resolve s .context (hCtx 1) = some 1 ∧ (ctx? s 1).isSome = true ∧ resolve s .fence hFence = some 2 ∧ fence? s 2 = some fenceB ∧
      2 ∈ ctxB.fences ∧ 2 ∉ ctxA.fences ∧ fenceHolders s 2 = [0] ∧ fenceB.waiters = 0 ∧ fenceB.refs = 0) ∧
    ((ctx? (after (exec (.share 9) (onQueue9 (cmdA (opEntry 0x26 [hCtx 0, hCtx 1, hMem]))))) 1).map (·.mems) = some [8]) ∧
    ((mem? (after (exec (.memAlloc 9 (some 0x0A0000000000)) (onQueue9 (cmdA (opEntry 0x24 [hCtx 0, 65537, 3]))))) 9).map (·.len) = some 2) := by
  decide +kernel

/-! ### The job -/

/-- As `onQueue9`, with session 0, which has the JOB right and controls the job or not, the words of a record at 0x100000, and a
configuration with a duty word. -/
def jobState (c : Cmd) (job : Option (Nat × Nat × Word)) (words : List Nat := []) (duty : BitVec 16 := 0) : State :=
  let s := onQueue9 c
  { s with
    mem := putBytes [] 0x100000 (words.flatMap (leBytes 8))
    start := { s.start with cfg := some { cfgA with duty := duty } }
    hoop := { s.hoop with bktBase := 0x40000, stateBase := 0x50000 }
    obj := { s.obj with job := job, sess := [(0, { gen := 1, client := 0, rights := 7, renewed := 0, admin := 9, ticket := [], qps := [] })] } }
def owned : Option (Nat × Nat × Word) := some (7, 0, 0)
def others : Option (Nat × Nat × Word) := some (7, 1, 0)

/-- Queue 9 with a JOB_CONFIG command, and that command. -/
def jobCmd (body : List Nat) : Cmd := cmdA (opEntry 0x2C body)
def jobQ (body : List Nat) : Queue := queueOf none [jobCmd body]
def isJobNext (s : State) (body : List Nat) (kind : Nat) : Bool :=
  (!pllDown s 1 && !pllDown s 3) && isNext s 9 (jobQ body) (jobCmd body) 0x2C && controls s (jobQ body).sess && decide (fld (eBody (jobCmd body).entry 0) 7 0 = kind)

theorem jobNext_of {s : State} {body : List Nat} {kind : Nat} (h : isJobNext s body kind = true) : JobNext s 9 (jobQ body) (jobCmd body) kind := by
  simp only [isJobNext, Bool.and_eq_true, decide_eq_true_eq, Bool.not_eq_true'] at h
  exact ⟨h.1.1.1, next_of h.1.1.2, h.1.2, h.2⟩

/-- The image of a bucket of one block at 0x60000 to 0x90000; two regions of a granule each, and two that meet. -/
def imageA : List Nat := [2 * 2 ^ 13 + 1, 0x60000, 0x70000, 0x78000, 0, 0x80000, 0, 0]
def regionsA : List Nat := [0x100000, granule, 0x100000 + granule, granule]
def mW : Nat := hMem * 2 ^ 32

theorem test_jobCommands_next :
    (∀ op ∈ jobKinds, AdminNext (jobState (jobCmd [op.1]) others) 9 (jobQ [op.1]) (jobCmd [op.1]) 0x2C) ∧
    (∀ b ∈ [[0], [1, 0x0F2800000030, 2 ^ 48 - 1], [1, 0x0F0000000200, 5], [1, 0x1000, 0], [2, 0, mW], [2, 65535, mW], [3, 0], [3, 65536], [4, mW, 257], [4, mW, 2],
        [5, 6, mW, hFence], [5, 6, mW], [5, 1, mW]],
      JobNext (jobState (jobCmd b) owned imageA 0x2A82) 9 (jobQ b) (jobCmd b) (b.headD 0)) := by
  refine ⟨fun op h => next_of ?_, fun b h => jobNext_of ?_⟩
  · have : ∀ k ∈ jobKinds.map Prod.fst, isNext (jobState (jobCmd [k]) others) 9 (jobQ [k]) (jobCmd [k]) 0x2C = true := by decide +kernel
    exact this op.1 (List.mem_map_of_mem h)
  · revert b; decide +kernel

theorem test_jobCommands_buckets :
    (let b := [2, 0, mW]
     let s := jobState (jobCmd b) owned imageA
     controls (jobState (jobCmd [1]) others) 0 = false ∧ recordAt s (jobQ b) mW 64 = (0x100000, none) ∧ imageOk s (rdBytes s 0x100000 64) = true ∧
      imageOk (jobState (jobCmd b) owned []) (rdBytes (jobState (jobCmd b) owned []) 0x100000 64) = false ∧
      slotOpen s 0 (bucketOf s 0).gen = false ∧ inHorizon s 0 = false ∧
      (openSlot (markStarted s 9 5) 0 (rdBytes s 0x100000 64)).1.turn.tblCnt.toNat ≤ 256 ∧
      (let t := after (exec (.bucketOpen 9) s)
       slotOpen t 0 1 = true)) ∧
    (let s0 := jobState (jobCmd [3, 0]) owned imageA
     let s1 := { s0 with mem := putBytes s0.mem 0x40000 (leBytes 8 (2 * 2 ^ 13 + 0x401)) }
     let s := { s1 with hoop := { s1.hoop with bktCnt := 1 } }
     slotOpen s 0 (bucketOf s 0).gen = true ∧ (after (exec (.bucketClose 9) s)).hoop.closing = [0] ∧
      (let t := { s with hoop := { s.hoop with closing := [0] } }
       0 ∈ t.hoop.closing ∧ bstep? t 0 = none ∧ t.turn.run = none ∧ bktAt t 0 + 64 ≤ recAt t 0 ∧ 1 ∉ t.hoop.closing ∧
        (bucketOf (after (exec (.bucketCloseEffect 0) t)) 0).isOpen = false)) := by decide +kernel

/-- The bucket entries and records are open, and apart. -/
theorem test_jobCommands_open : (let s := jobState (jobCmd [2, 0, mW]) owned imageA; Open s (bktAt s 0) 64 ∧ Open s (recAt s 0) 64 ∧
    Apart (bktAt s 0) (recAt s 0) 64) := ⟨open_of (by decide +kernel) (by decide), open_of (by decide +kernel) (by decide), .inl (by decide +kernel)⟩

theorem test_jobCommands_regions :
    (let s := jobState (jobCmd [4, mW, 2]) owned regionsA
     let rs := (List.range 2).map fun i => (fld (rdNum s (0x100000 + 16 * i) 8) 47 0, fld (rdNum s (0x100000 + 16 * i + 8) 8) 47 0)
     recordAt s (jobQ [4, mW, 2]) mW (16 * 2) = (0x100000, none) ∧ regionsOk rs = true ∧
      regionsOk [(0, granule), (granule, granule)] = true ∧ regionsOk [(0, granule), (0, granule)] = false ∧
      (wholeTable (markStarted s 9 5) [(0, granule), (granule, granule)]).length ≤ 256) ∧
    (let s := jobState (jobCmd [4, mW, 2]) owned [0, granule, granule, granule]
     (after (exec (.turnRegions 9) s)).turn.client = [(0, granule), (granule, granule)]) := by decide +kernel

theorem test_jobCommands_decisions :
    (let s := jobState (jobCmd [5, 6, mW, hFence]) owned [] 0x2A82
     6 ∈ [0, 3, 4, 6] ∧ dutyMode s 6 = 2 ∧ 1 ∉ [0, 3, 4, 6] ∧ recordAt s (jobQ [5, 6, mW, hFence]) mW 4 = (0x100000, none) ∧
      (resolve s .fence (fld (eBody (jobCmd [5, 6, mW, hFence]).entry 0x18) 31 0)).bind (fence? s) = some fenceB ∧
      (resolve s .fence (fld (eBody (jobCmd [5, 6, mW]).entry 0x18) 31 0)).bind (fence? s) = none ∧
      ((after (exec (.decisionPost 9) s)).obj.posts.map fun p => (p.fn, p.base)) = [(6, fenceB.value)]) ∧
    (let s0 := jobState (jobCmd [5, 6, mW, hFence]) owned [] 0x2A82
     let s := { s0 with obj := { s0.obj with contend := [(6, 0)] } }
     mget? s.obj.contend 6 = some 0 ∧ mget? s.obj.contend 0 = none ∧ dutyMode s 6 = 2 ∧ decided s 6 = false ∧
      dutyDeadline s 6 ≤ subMod 64 (now s) 0 ∧ (after (exec (.decisionDeadlineExpiry 6) s)).dutyFb.getLsbD 6 = true) := by decide +kernel

/-- A join record of two members side by side in X, of which this module is the first and coordinator 0; with a DUTY word. -/
def joinWords (duty ext : Nat) : List Nat :=
  [8 * 2 ^ 48 + 2, 2 * 2 ^ 48 + duty, 2 ^ 16, ext, 0, 0, 0, 0, 0 * 2 ^ 48 + 2 ^ 32, 1 * 2 ^ 48 + 1]
def joinC : Cmd := cmdA (opEntry 0x2B [mW, hFence])

theorem test_jobJoin :
    AdminNext (jobState joinC none (joinWords 0 1)) 9 (queueOf none [joinC]) joinC 0x2B ∧
    AdminNext (jobState joinC others (joinWords 0 1)) 9 (queueOf none [joinC]) joinC 0x2B ∧
    (let s := jobState joinC none (joinWords 0 1)
     let r := joinRec s 0x100000
     mayJoin s 0 = true ∧ mayJoin (onQueue9 joinC) 0 = false ∧ s.triage.unfit = false ∧ s.obj.job = none ∧
      (jobState joinC others).obj.job.isSome = true ∧ (jobState joinC others).turn.coordStat.getLsbD 29 = false ∧
      recordAt s (queueOf none [joinC]) mW 64 = (0x100000, none) ∧
      recordAt s (queueOf none [joinC]) mW (64 + 8 * fld (rdNum s 0x100008 8) 63 48 + 8 * fld (rdNum s 0x100008 8) 47 32) = (0x100000, none) ∧
      gridOk r = true ∧ (∃ m ∈ r.members, m.1 = ownNode s) ∧ sharedDuty r.duty = sharedDuty (dutyWord s) ∧
      fenceHeld s (queueOf none [joinC]) (fld (eBody joinC.entry 8) 31 0) = true ∧ ownNode s = r.coord.headD 0 ∧
      fld (after (exec (.jobJoin 9) s)).turn.coordStat.toNat 31 30 = 2 ∧ s.turn.left ≠ some r.job ∧
      (let s2 := { s with turn := { s.turn with left := some r.job } }
       mayJoin s2 0 = true ∧ s2.obj.job = none ∧ gridOk (joinRec s2 0x100000) = true ∧ s2.turn.left = some (joinRec s2 0x100000).job ∧
        fld (after (exec (.jobJoin 9) s2)).turn.coordStat.toNat 31 30 = 3)) ∧
    gridOk (joinRec (jobState joinC none (joinWords 0 0)) 0x100000) = false ∧
    sharedDuty (joinRec (jobState joinC none (joinWords 4 1)) 0x100000).duty ≠ sharedDuty (dutyWord (jobState joinC none (joinWords 4 1))) := by
  refine ⟨next_of ?_, next_of ?_, ?_, ?_, ?_⟩ <;> decide +kernel

/-! ### Residents of a core -/

/-- A block of two groups of 32 registers and one unit at the head of the admission queue. -/
def admA (u : Nat := 1) : AdmBlock := { ctx := 0, launch := (4, 0), bid := 9, g := 2, n := 32, u := u, entry := 0x4000, param := List.replicate 64 7 }
def resState (k : Core) (qs : Map Queue := []) : State := { objState qs with cores := [(255, k)] }
def quietCore : Core := { ctx := some 0, groups := [(0, { grpA 0x1000 with paths := [] })], blocks := [(0, blkA)] }

theorem test_blockAdmit :
    (let s := resState { quietCore with admQ := [admA] }
     (coreOf s 255).admQ.head? = some admA ∧ (coreOf s 255).stopped = false ∧ (coreOf s 255).ctx = some admA.ctx ∧
      (∀ i ∈ List.range 1, (mget? (coreOf s 255).blocks i).isSome = true) ∧ mget? (coreOf s 255).blocks 1 = none ∧ freeRun (coreOf s 255) 1 = some 1 ∧
      (freeSlots (coreOf s 255).groups 48 2).length = 2 ∧ unitsUsed (coreOf s 255) + 2 * unitsOf 32 ≤ 512 ∧
      (coreOf (after (exec (.blockAdmit 255) s)) 255).blocks.map Prod.fst = [0, 1] ∧
      ((coreOf (after (exec (.blockAdmit 255) s)) 255).groups.map fun kv => kv.2.units.length).drop 1 = [unitsOf 32, unitsOf 32]) ∧
    (let s := resState { quietCore with admQ := [admA 384] }
     freeSlots (coreOf s 255).blocks 16 1 ≠ [] ∧ freeRun (coreOf s 255) 384 = none) ∧
    (coreOf (resState quietCore) 255).admQ = [] := by decide +kernel

theorem test_coreResidents :
    (let s := resState quietCore
     groupDone (coreOf s 255) 0 = true ∧ groupDone (coreOf s 255) 1 = false ∧ blockDone (coreOf s 255) 0 = true ∧ blockDone (coreOf s 255) 15 = false) ∧
    (let c := cmdA (launchE)
     let high : Queue := { queueOf (some 1) [c] with prio := 9 }
     let s := resState { coreA 0x1000 with issueCnt := 7 } [(4, high)]
     let s2 := resState { coreA 0x1000 with ladleQ := [{ words := [], src := (0, 0), order := 0, prev := none, ctx := 0, core := none, cmd := none, n := 0 }] } [(4, high)]
     preemptDue s 255 = true ∧ quiet (coreOf s 255) = true ∧ (coreOf s 255).ctx = some 0 ∧ ctx? s 0 = some ctxB ∧ ctxB.saveObj = none ∧ saveWaits s (saveRange s 255 0) none = false ∧
      preemptDue s2 255 = true ∧ quiet (coreOf s2 255) = false ∧ preemptDue (resState quietCore) 255 = false ∧
      ((ctx? (after (exec (.preempt 255) s)) 0).map (·.issued)) = some 7) ∧
    (let s := resState {}
     ctx? s 0 = some ctxB ∧ (coreOf s 255).ctx = none ∧ (coreOf s 255).stopped = false ∧ (coreOf s 255).blocks = [] ∧ quiet (coreOf s 255) = true ∧
      ctxB.slot = true ∧ ctxB.state = 1 ∧ ctxB.cores.getLsbD 255 = true ∧ saveWaits s none (saveRange s 255 0) = false ∧ (coreOf (after (exec (.contextSwitch 255 0) s)) 255).ctx = some 0) ∧
    (coreOf (resState quietCore) 255).blocks ≠ [] := by decide +kernel

/-- Only core 255 runs context 0. -/
theorem test_ctxCounterUpdate : (coreOf (resState quietCore) 255).ctx = some 0 ∧ ctx? (resState quietCore) 0 = some ctxB ∧
    ∀ d ∈ List.range 256, d ≠ 255 → (coreOf (resState quietCore) d).ctx ≠ some 0 := by decide +kernel

/-! ### Register writes and the whole machine -/

theorem test_registerWrites : csrOk full .rind 0x0F0000000408 4 true = true ∧ csrOk full .rind 0x0F0000000409 4 true = false ∧
    csrOpen full (.client 1) 0x0F0000000408 true = false ∧ (coreOf full 0).ctx = some 0 ∧ ctx? full 0 = some ctxA ∧ ctxA.state = 1 ∧
    ctxA.dying = false ∧ (after (exec (.registerWrite .rind 0x0F0000000408 4 0x0FFF) full)).fab.tmo = 0x1000 ∧
    (let t := after (exec (.registerWrite .rind 0x0F0101041008 4 0x5) full)
     (coreOf t 1).press.coNext.isSome = true ∧ (csrRead t 0x0F0101041008).1 = (csrRead full 0x0F0101041008).1) := by decide +kernel

/-- A command in front of another; an idle module with power and without. -/
def queued : State := { full with pending := [.smbusReadSensor 0x36, .mgmtConnect] }
theorem test_step : queued.pending = .smbusReadSensor 0x36 :: [.mgmtConnect] ∧ (after (step queued)).pending = [.mgmtConnect] ∧ full.pending = [] ∧
    full.pow.vin = true ∧ full.pow.refGone = false ∧ (after (step full)).refCnt = 1 ∧
    ({ full with pow := { vin := false } } : State).pow.vin = false ∧
    (after (step { full with pow := { full.pow with refGone := true } })).refCnt = 0 := by decide +kernel

/-- Reset keeps the canonical form, and a step from it answers a next state. -/
theorem test_memoryStaysCanonical : State.reset.memOk ∧ ∃ t, step State.reset = .next t := ⟨by decide +kernel, _, rfl⟩

/-- A command that runs, with its state after it. -/
theorem test_queueUntouched : Runs (.mgmtConnect) full (after (exec .mgmtConnect full)) ∧ WellFormed .mgmtConnect = true := ⟨rfl, rfl⟩

end Sys2Proof.Tests
end

section
/-! PROOFS. The statements about the module as a whole: every well-formed command answers a next state, and what a
register write does where the queue of a press is full (R2, R33, R539). -/

namespace Sys2Proof.Proofs.Scope

open Sys2Proof.Machine Sys2Proof.Says

/-! ### Results that are a next state -/

/-- A result that is a next state, neither a fault nor a refusal. -/
def Answers (r : Res) : Prop := ∃ t, r = .next t

theorem Answers.next (t : State) : Answers (.next t) := ⟨t, rfl⟩

theorem Answers.ite {p : Prop} [Decidable p] {a b : Res} (ha : Answers a) (hb : Answers b) : Answers (if p then a else b) := by
  split
  · exact ha
  · exact hb

theorem Answers.onUnit {n i : Nat} {r : Res} (h : i < n) (hr : Answers r) : Answers (onUnit n i r) := by
  rwa [onUnit_lt h]

theorem Answers.onCore {c : Nat} {r : Res} (h : c < 256) (hr : Answers r) : Answers (onCore c r) := hr.onUnit h

theorem Answers.onHub {s : State} {r : Res} (hr : Answers r) : Answers (onHub s r) := .ite (.next s) hr

theorem Answers.onRind {s : State} {r : Res} (hr : Answers r) : Answers (onRind s r) := .ite (.next s) hr

theorem Answers.onPress {s : State} {c : Nat} {r : Res} (h : c < 256) (hr : Answers r) : Answers (onPress s c r) :=
  .onCore h (.ite hr (.next s))

theorem Answers.onWhey {s : State} {c : Nat} {run : State → Res} (hr : ∀ t, Answers (run t)) : Answers (onWhey s c run) :=
  .ite (.next s) (hr _)

/-- An issue in a core and a slot of the module answers where the effect of the instruction does. -/
theorem Answers.issue {s : State} {c g : Nat} {f : Form} {i : Insn} {run : Issue → Res} (h : c < 256 ∧ g < 48)
    (hr : ∀ x, Answers (run x)) : Answers (issue s c g f i run) := by
  obtain ⟨hn, -⟩ | e | ⟨x, -, -, e⟩ | ⟨x, st, -, e⟩ | ⟨x, -, -, e⟩ | e | ⟨x, -, -, -, -, -, -, -, e⟩ := issue_cases s c g f i run
  · exact absurd h hn
  · exact ⟨_, e⟩
  · exact ⟨_, e⟩
  · exact ⟨_, e⟩
  · exact ⟨_, e⟩
  · exact ⟨_, e⟩
  · exact e ▸ hr x

/-! ### Thread instructions whose effect has several outcomes -/

theorem answers_access (s : State) (x : Issue) (q : Ask) (space : Nat) (lane : Nat → LaneOp) :
    Answers (access s x q space lane) := by
  refine .ite (.next _) ?_
  dsimp only
  cases laneFault s x.c q.width space q.kind ((x.act.map lane).map (·.addr)) with
  | some st => exact .next _
  | none => exact .ite (.next _) (.ite (.next _) (.ite (.next _) (.next _)))

theorem answers_wheyIssue (s : State) (c g : Nat) (x : Issue) (r : State → ChainCheck) (off : Nat) (put : Nat → Bool → Group) :
    Answers (wheyIssue s c g x r off put) := by
  refine .ite (.next _) ?_
  dsimp only
  split
  · exact .next _
  · exact .next _
  · exact .next _

theorem answers_mxissue {c g : Nat} (h : c < 256 ∧ g < 48) (i : Insn) (s : State) : Answers (execMxissue c g i s) := by
  refine .issue h fun x => .ite (.next _) (.ite (.next _) (.ite (.next _) ?_))
  dsimp only
  split
  · exact .next _
  · exact .next _
  · exact .next _

/-! ### Commands of the press and the whey with several outcomes -/

theorem answers_pressLoadStart {c : Nat} (h : c < 256) (s : State) : Answers (execPressLoadStart c s) := by
  refine .onCore h ?_
  dsimp only
  split
  · exact .next _
  · exact .ite (.next _) (.next _)

theorem answers_pressLoadEnd {c : Nat} (h : c < 256) (s : State) : Answers (execPressLoadEnd c s) := by
  refine .onPress h ?_
  split
  · exact .next _
  · exact .next _

theorem answers_pressSwap {c : Nat} (h : c < 256) (s : State) : Answers (execPressSwap c s) := by
  refine .onCore h ?_
  dsimp only
  split
  · split
    · exact .next _
    · exact .ite (.next _) (.next _)
  · exact .next _

theorem answers_pressRowEntry {c : Nat} (h : c < 256) (s : State) : Answers (execPressRowEntry c s) := by
  refine .onCore h ?_
  dsimp only
  split
  · exact .next _
  · split
    · exact .next _
    · exact .ite (.next _) (.next _)

theorem answers_pressOutputWrite {c : Nat} (h : c < 256) (e : PressErr) (s : State) : Answers (execPressOutputWrite c e s) := by
  refine .onPress h ?_
  dsimp only
  split
  · exact .next _
  · split
    · exact .next _
    · split
      · exact .next _
      · exact .ite (.next _) (.ite (.next _) (.ite (.next _) (.next _)))

theorem answers_pressRerun {c : Nat} (h : c < 256) (s : State) : Answers (execPressRerun c s) := by
  refine .onPress h ?_
  dsimp only
  split
  · exact .next _
  · split
    · split
      · exact .ite (.next _) (.next _)
      · exact .next _
    · exact .next _

theorem answers_descriptorComplete {c : Nat} (h : c < 256) (s : State) : Answers (execDescriptorComplete c s) := by
  refine .onPress h ?_
  split
  · exact .next _
  · exact .next _

theorem answers_batchOpen {c : Nat} (h : c < 256) (s : State) : Answers (execBatchOpen c s) := by
  refine .onCore h ?_
  dsimp only
  split
  · exact .ite (.next _) (.next _)
  · exact .next _

theorem answers_pressCcWrite {c n : Nat} (hc : c < 256) (hn : n < 64) (v : Word) (inc : Bool) (s : State) :
    Answers (execPressCcWrite c n v inc s) := by
  refine .onCore hc (.onUnit hn (.ite ?_ (.next _)))
  dsimp only
  split
  · exact .next _
  · exact .next _

theorem answers_chainGroupEntry {c : Nat} (h : c < 256) (s : State) : Answers (execChainGroupEntry c s) := by
  refine .onCore h ?_
  dsimp only
  split
  · exact .next _
  · exact .ite (.next _) (.next _)

theorem answers_chainGroupWrite {c : Nat} (h : c < 256) (differ : Bool) (s : State) : Answers (execChainGroupWrite c differ s) := by
  refine .onCore h (.onWhey fun t => ?_)
  dsimp only
  split
  · exact .next _
  · exact .ite (.next _) (.ite (.next _) (.next _))

theorem answers_wheyGroupRerun {c : Nat} (h : c < 256) (differ : Bool) (s : State) : Answers (execWheyGroupRerun c differ s) := by
  refine .onCore h (.onWhey fun t => ?_)
  dsimp only
  split
  · exact .next _
  · exact .ite (.next _) (.ite (.next _) (.next _))

theorem answers_chainComplete {c : Nat} (h : c < 256) (s : State) : Answers (execChainComplete c s) := by
  refine .onCore h ?_
  split
  · exact .next _
  · exact .next _

theorem answers_wheyCcWrite {c n : Nat} (hc : c < 256) (hn : n < 64) (v : Word) (inc : Bool) (s : State) :
    Answers (execWheyCcWrite c n v inc s) := by
  refine .onCore hc (.onUnit hn (.ite ?_ (.next _)))
  dsimp only
  split
  · exact .next _
  · exact .ite (.next _) (.next _)

/-! ### Other commands with several outcomes -/

theorem answers_query (q : Nat) (s : State) : Answers (execQuery q s) := by
  refine .onHub ?_
  split
  · exact .next _
  · exact .next _

theorem answers_selftest (conn : Option Nat) (t : SelfTest) (s : State) : Answers (execSelftest conn t s) := by
  refine .onRind ?_
  dsimp only
  split
  · exact .next _
  · exact .next _

/-! ### Every command -/

/-- What well-formedness says of a command that names two units. -/
theorem units_exist {a m b n : Nat} (h : (decide (a < m) && decide (b < n)) = true) : a < m ∧ b < n := by
  simpa using h

/-- Every command that names only units of the module answers. The cases are grouped by the guard with which the command
begins; those of the last group have no guard. -/
theorem wellFormed_answers (i : Instr) (s : State) (h : WellFormed i = true) : Answers (exec i s) := by
  cases i with
  -- Thread instructions.
  | nop | bra | call | mov | add | sub | mullo | mulhiS | mulhiU | mad | and | or | xor | shl | shr | sar | minS | minU | maxS
  | maxU | popc | clz | sel | laneRd | add64 | sub64 | fadd | fmul | fma | fmin | fmax | fabs | fneg | testEq | testNe | testLtS
  | testLeS | testGtS | testGeS | testLtU | testLeU | testGtU | testGeU | ftestEq | ftestNe | ftestLt | ftestLe | ftestGt
  | ftestGe | plogAnd | plogOr | plogXor | packp | loadp | gany | gall | gmask | srd =>
    exact .issue (units_exist h) fun _ => .next _
  | syncg | mxwait | wxwait => exact .issue (units_exist h) fun _ => .ite (.next _) (.ite (.next _) (.next _))
  | jmp | ret | exit | fence => exact .issue (units_exist h) fun _ => .ite (.next _) (.next _)
  | bar => exact .issue (units_exist h) fun _ => .ite (.next _) (.ite (.next _) (.ite (.next _) (.next _)))
  | load | store | atomAdd | atomFadd | atomMinS | atomMinU | atomMaxS | atomMaxU | atomAnd | atomOr | atomXor | atomExch
  | atomCas => exact .issue (units_exist h) fun _ => answers_access ..
  | mxissue => exact answers_mxissue (units_exist h) ..
  | wxissue => exact .issue (units_exist h) fun _ => .ite (.next _) (.ite (.next _) (answers_wheyIssue ..))
  | cvt => exact .issue (units_exist h) fun _ => .ite (.next _) (answers_wheyIssue ..)
  -- Commands of a core.
  | pressCoCtlWrite | trackedAccessRelease | loadReturn | writePerformed | atomicPerformed | releaseWaitEnd | phaseSet
  | shardPtr | segReplay | hoopScaleReady | hoopBucketReady | readWheyNanCnt | readPressSatOther =>
    exact .onCore (of_decide_eq_true h) (.next _)
  | preempt | contextSwitch | blockAdmit => exact .onHub (.onCore (of_decide_eq_true h) (.next _))
  | selftestRun | coreRemap => exact .onRind (.onCore (of_decide_eq_true h) (.next _))
  | groupResourceFree | blockResourceFree =>
    exact .onHub (.onCore (units_exist h).1 (.onUnit (units_exist h).2 (.next _)))
  | pressSatFree | ladleSubmit => exact .onCore (units_exist h).1 (.onUnit (units_exist h).2 (.next _))
  | pressClockStop => exact .onCore (of_decide_eq_true h) (.ite (.next _) (.next _))
  | batchWaitExpiry => exact .onPress (of_decide_eq_true h) (.next _)
  | pressLoadStart => exact answers_pressLoadStart (of_decide_eq_true h) _
  | pressLoadEnd => exact answers_pressLoadEnd (of_decide_eq_true h) _
  | pressSwap => exact answers_pressSwap (of_decide_eq_true h) _
  | pressRowEntry => exact answers_pressRowEntry (of_decide_eq_true h) _
  | pressOutputWrite => exact answers_pressOutputWrite (of_decide_eq_true h) ..
  | pressRerun => exact answers_pressRerun (of_decide_eq_true h) _
  | descriptorComplete => exact answers_descriptorComplete (of_decide_eq_true h) _
  | batchOpen => exact answers_batchOpen (of_decide_eq_true h) _
  | pressCcWrite => exact answers_pressCcWrite (units_exist h).1 (units_exist h).2 ..
  | chainGroupEntry => exact answers_chainGroupEntry (of_decide_eq_true h) _
  | chainGroupWrite => exact answers_chainGroupWrite (of_decide_eq_true h) ..
  | wheyGroupRerun => exact answers_wheyGroupRerun (of_decide_eq_true h) ..
  | chainComplete => exact answers_chainComplete (of_decide_eq_true h) _
  | wheyCcWrite => exact answers_wheyCcWrite (units_exist h).1 (units_exist h).2 ..
  | cultureWrite c lane v =>
    cases lane with
    | none => exact .onCore (of_decide_eq_true h) (.next _)
    | some l => exact .onCore (units_exist h).1 (.onUnit (units_exist h).2 (.next _))
  | domainWake d =>
    cases d with
    | press c => exact .onCore (of_decide_eq_true h) (.next _)
    | cave ch => exact .onUnit (of_decide_eq_true h) (.next _)
    | port p => exact .onUnit (of_decide_eq_true h) (.next _)
  -- Commands of one other unit.
  | flitReceive | failoverFlit | trainFlit | linkRetryTimeout | linkTrainStateDone | trainLimitExpiry | retrain | readRuongPerr
  | readRuongPcorr | cavePark | caveWake | readEthCnt | readPcieLerr | ethLinkUp | ethLinkDown | railOutOfTolerance
  | sensorLimitCross | pllLossOfLock => exact .onUnit (of_decide_eq_true h) (.next _)
  | doorbell | qdbLease | ladleCommandStart | ladleBlock | ladleComplete | nvmeCommandComplete | pcieLinkDown | ethFrameReceive
  | pfcPauseReceive | rdmaWrite | rdmaRead | compareAndSwap | fetchAndAdd | rdmaSend =>
    exact .onHub (.onUnit (of_decide_eq_true h) (.next _))
  | nvmeEnable | cmReq | cmDreq | close | leaseExpiry => exact .onRind (.onUnit (of_decide_eq_true h) (.next _))
  -- Commands of a port and a virtual channel.
  | transitForward | transitHoldExpiry | write | readReq | readRsp | atomic | atomicRsp | writeCpl | errorRsp | reduceScaleRs
  | reduceScaleAg | reduceRedRs | reduceRedAg | reduceAck | reduceNak =>
    exact .onHub (.onUnit (units_exist h).1 (.next _))
  | mailboxHeartbeat | mailboxReport | mailboxMirror | mailboxAck | mailboxDecision | decisionGo | mailboxReady =>
    exact .onRind (.onUnit (units_exist h).1 (.next _))
  -- Commands of the hub.
  | launchBlocksEnd | commandStart | commandRetire | launch | ladle | signal | slotTake | slotEvict | quarantineEnd | ctxCreate
  | ctxDestroy | queueCreate | queueDestroy | memAlloc | memFree | share | fenceCreate | fenceDestroy | abort | packetInject
  | routeDrain | patrolScrub | ctxCounterUpdate | remoteReleasePerform | remoteTimeout | tagQuarantineEnd | reduceAckTimer
  | reduceResendTimeout | bucketMatchLoad | bucketStepOpen | bucketStepComplete | holdWindowExpiry | ripenCopy | hoopStallExpiry
  | turningPoint | turningGranule | mirrorComplete | bucketCloseEffect | activityFrame | qwRegenerate | regenCheckDone =>
    exact .onHub (.next _)
  | query => exact answers_query ..
  -- Commands of the rind.
  | routeCacheReady | rescaleAssistReturn | routeTableLoad | heartbeatTimer | memberLossExpiry | mirrorAckTimeout
  | standbyTakeover | spareMirrorCopy | jobJoin | setReg | bucketClose | decisionPost | decisionDeadlineExpiry | hello | proof
  | handshakeTimeout | faultLogAppend | mgmtConnect | attestReq | recoveryImageWrite | imagePut | start | scanHold | meterRead
  | logRead | debugTokenLoad => exact .onRind (.next _)
  | bucketOpen | turnRegions => exact .onRind (.ite (.next _) (.next _))
  | selftest => exact answers_selftest ..
  -- Commands without a guard.
  | meterExit => exact .ite (.next _) (.next _)
  | _ => exact .next _

/-- Settles O60: no command but one that names a unit outside the module ends in a fault, and none is refused. A command
whose event cannot come about leaves the state as it is (DESIGN CHOICE, log entry 7). -/
theorem wellFormedCommandsRun : Obligations.WellFormedCommandsRun := fun i s h => wellFormed_answers i s h

/-! ### A write of PRESS_CO_CTL while the queue of the press is full (R539) -/

/-- Core 0 with the clock of its press stopped, and eight writes that wait for it. -/
def fullPress : State :=
  { State.reset with cores := [(0, { press := { stopped := true, writes := List.replicate 8 (none, 0) } })] }

theorem fullPress_full : writesFull fullPress 0 = true ∧ pressRuns fullPress 0 = false := by decide

/-- A write of PRESS_CO_CTL of core 0 by the rind finds no room there: it waits, and the state stands. -/
theorem fullPress_write_waits : Runs (.registerWrite .rind 0x0F0100041008 4 0) fullPress fullPress := rfl

/-- Refutes O52: it has every write of PRESS_CO_CTL join the writes that wait for a stopped press clock, but these are held
in a queue of 8, and a ninth one waits outside it (R539). -/
theorem not_registerWrites : ¬ Obligations.RegisterWrites := by
  intro h
  obtain ⟨-, -, -, -, -, -, hcore, -⟩ := h fullPress 0
  obtain ⟨-, ⟨t, hrun, -, -, -, -, hqueued⟩, -⟩ := hcore 0 (by decide)
  obtain ⟨hwrites, -⟩ := hqueued fullPress_full.2
  have hnext : (Host.Outcome.next t : Res) = .next fullPress := hrun.symm.trans fullPress_write_waits
  obtain rfl : t = fullPress := Host.Outcome.next.inj hnext
  have hlen := congrArg List.length hwrites
  simp at hlen

end Sys2Proof.Proofs.Scope
end

section
/-! PROOFS. The chains of a core's whey unit: their groups enter, and are written to the memories or run again
(R225, R226, R231, R238, R241 to R243, R307). -/

namespace Sys2Proof.Proofs.Chains

open Sys2Proof.Machine Sys2Proof.Says

/-! ### A list with one element replaced -/

theorem getElem?_lset_same {α : Type} {xs : List α} {i : Nat} {x : α} (h : xs[i]? = some x) (y : α) :
    (lset xs i y)[i]? = some y := by
  induction xs generalizing i with
  | nil => simp at h
  | cons z xs ih =>
    cases i with
    | zero => rfl
    | succ i => exact ih (i := i) (by simpa using h)

theorem lset_append_length {α : Type} (xs : List α) (x y : α) : lset (xs ++ [x]) xs.length y = xs ++ [y] := by
  induction xs with
  | nil => rfl
  | cons z xs ih => simp [lset, ih]

/-- Where every other element gives nothing, only the new one is left. -/
theorem flatMap_lset {α β : Type} {f : α → List β} {xs : List α} (hf : ∀ x ∈ xs, f x = []) {i : Nat} {x : α}
    (h : xs[i]? = some x) (y : α) : (lset xs i y).flatMap f = f y := by
  induction xs generalizing i with
  | nil => simp at h
  | cons z xs ih =>
    have hxs : ∀ x ∈ xs, f x = [] := fun x hx => hf x (List.mem_cons_of_mem z hx)
    cases i with
    | zero => simpa [lset] using hxs
    | succ i => simpa [lset, hf z List.mem_cons_self] using ih hxs (i := i) (by simpa using h)

/-! ### The next group enters (R226, R231, R238) -/

theorem settleCulture_of_no_writes {k : Core} (h : k.whey.writes = []) : settleCulture k = k := by
  simp [settleCulture, h, settleCultureN]

/-- No chain begins behind one with groups that have not entered. -/
theorem beginChain_of_unfinished {k : Core} {r : WheyRun} (hr : k.whey.runs[lastChain k.whey]? = some r)
    (h : r.entered < groupTotal r.e.chain) : beginChain k = k := by
  have hno (e : WheyEntry) : chainMayBegin k.whey e = false := by
    simp [chainMayBegin, hr, Nat.ne_of_lt h]
  unfold beginChain
  split
  · simp [hno]
  · rfl

/-- A chain as it begins: nothing entered, and the culture counters as it finds them. -/
def freshRun (w : Whey) (e : WheyEntry) : WheyRun :=
  { e := e, entered := 0, written := 0, part := [], ctr0 := if e.replay then w.rctr else w.ctr, events := 0, first := none
    mism := false, dead := none, late := [] }

/-- The head of the queue begins where the chain before it has entered whole and no culture write waits. -/
theorem beginChain_head {k : Core} {e : WheyEntry} {rest : List WheyEntry} (hq : k.whey.queue = e :: rest)
    (hw : k.whey.writes = [])
    (hlast : ∀ r, k.whey.runs[lastChain k.whey]? = some r → r.entered = groupTotal r.e.chain ∧ r.dead = none) :
    beginChain k = { k with whey := { k.whey with queue := rest, runs := k.whey.runs ++ [freshRun k.whey e] } } := by
  have hmay : chainMayBegin k.whey e = true := by
    cases hr : k.whey.runs[lastChain k.whey]? with
    | none => simp [chainMayBegin, hr, hw]
    | some r => simp [chainMayBegin, hr, hw, hlast r hr]
  simp [beginChain, hq, hmay, freshRun]

@[simp] theorem moveDraws_runs (w : Whey) (replay : Bool) (n : Int) : (moveDraws w replay n).runs = w.runs := by
  cases replay <;> rfl
@[simp] theorem moveDraws_queue (w : Whey) (replay : Bool) (n : Int) : (moveDraws w replay n).queue = w.queue := by
  cases replay <;> rfl
theorem moveDraws_live_ctr (w : Whey) (n : Int) : (moveDraws w false n).ctr = bumpCtr w.ctr n := rfl

theorem mget_foldl_bump {ls : List Nat} (hls : ls.Nodup) (m : Map Dword) (x : Dword) (l : Nat) :
    mget (ls.foldl (fun m l => mset m 0 l (mget m 0 l + x)) m) 0 l = mget m 0 l + if l ∈ ls then x else 0 := by
  induction ls generalizing m with
  | nil => simp
  | cons a ls ih =>
    obtain ⟨ha, hls⟩ := List.nodup_cons.1 hls
    rw [List.foldl_cons, ih hls]
    by_cases e : l = a
    · subst e
      rw [mget_mset_same, if_neg ha, if_pos List.mem_cons_self]
      exact BitVec.add_zero _
    · rw [mget_mset_ne m 0 e]
      simp [e]

/-- The counter of every lane moves. -/
theorem mget_bumpCtr (m : Map Dword) (n : Nat) {l : Nat} (h : l < 64) :
    mget (bumpCtr m n) 0 l = mget m 0 l + BitVec.ofNat 64 n := by
  rw [bumpCtr, mget_foldl_bump List.nodup_range, if_pos (List.mem_range.2 h), BitVec.ofInt_natCast]

/-- Core c once the next group of its last chain has entered; `k` is the core with that chain begun. -/
def groupIn (s : State) (c : Nat) (k : Core) (r : WheyRun) : State :=
  setCore s c { k with
    whey := setChain (moveDraws k.whey r.e.replay (drawCount r.e.chain)) (lastChain k.whey) { r with entered := r.entered + 1 } }

/-- A group enters where the chain that began last has one left and nothing holds it back. -/
theorem chainGroupEntry_runs {s : State} {c : Nat} {k : Core} {r : WheyRun} (hc : c < 256) (hpll : pllDown s (4 + c / 64) = false)
    (hw : (coreOf s c).whey.writes = []) (hk : beginChain (coreOf s c) = k)
    (hr : k.whey.runs[lastChain k.whey]? = some r) (hleft : r.entered < groupTotal r.e.chain)
    (hapart : chainAcross r.e.chain = true → r.entered = r.written)
    (hfree : earlierHeld k c r.e.n (chainRngs r.e.chain) false = false) :
    Runs (.chainGroupEntry c) s (groupIn s c k r) := by
  have hgo : (!chainAcross r.e.chain || r.entered == r.written) = true := by
    cases ha : chainAcross r.e.chain with
    | false => rfl
    | true => simp [hapart ha]
  show execChainGroupEntry c s = .next (groupIn s c k r)
  rw [execChainGroupEntry, onCore_lt hc, settleCulture_of_no_writes hw, hk]
  simp [hr, hgo, hpll, hleft, hfree, groupIn]

theorem chainGroupsEnter : ChainGroupsEnter := by
  intro s c hc hpll hw
  refine ⟨fun r hr hleft hapart hfree => ?_, fun e rest hq hlast htotal hfree => ?_⟩
  · refine ⟨_, chainGroupEntry_runs hc hpll hw (beginChain_of_unfinished hr hleft) hr hleft hapart hfree, ?_, ?_, rfl⟩
    · simp [groupIn, setChain]
    · intro hlive l hl
      have hctr : (coreOf (groupIn s c (coreOf s c) r) c).whey.ctr = bumpCtr (coreOf s c).whey.ctr (drawCount r.e.chain) := by
        simp [groupIn, setChain, hlive, moveDraws_live_ctr]
      rw [hctr, mget_bumpCtr _ _ hl]
  · have hk := beginChain_head hq hw hlast
    rw [hk] at hfree
    have hrun := chainGroupEntry_runs (r := freshRun (coreOf s c).whey e) hc hpll hw hk (by simp [lastChain]) htotal
      (fun _ => rfl) hfree
    refine ⟨_, { freshRun (coreOf s c).whey e with entered := 1 }, hrun, ?_, rfl, rfl, rfl, ?_, rfl⟩
    · simp [groupIn, setChain, lastChain, lset_append_length, freshRun]
    · simp [groupIn, setChain]

/-! ### Writes of 64-byte blocks (R307) -/

/-- Writes performed one after another. -/
def putAll (s : State) (ws : List HeldWrite) : State := ws.foldl (fun s w => memPut s w.addr w.data) s

/-- A write to memory changes nothing of a core but its press, whose tile it may drop (R123). -/
theorem coreOf_memPut (s : State) (a : Nat) (bs : Bytes) (c : Nat) :
    ∃ p, coreOf (memPut s a bs) c = { coreOf s c with press := p } := by
  have hdrop : ∃ p, coreOf (dropTags s a bs.length) c = { coreOf s c with press := p } := by
    unfold dropTags
    split
    · next d off _ =>
      split
      · by_cases e : c = d
        · subst e
          rw [coreOf_modCore_same]
          unfold dropTag
          split
          · split
            · exact ⟨_, rfl⟩
            · exact ⟨_, rfl⟩
          · exact ⟨_, rfl⟩
        · rw [coreOf_modCore_ne s e]
          exact ⟨_, rfl⟩
      · exact ⟨_, rfl⟩
    · exact ⟨_, rfl⟩
  unfold memPut
  dsimp only
  split
  · exact hdrop
  · exact hdrop

theorem coreOf_putAll (s : State) (ws : List HeldWrite) (c : Nat) :
    ∃ p, coreOf (putAll s ws) c = { coreOf s c with press := p } := by
  refine foldl_keeps (P := fun t => ∃ p, coreOf t c = { coreOf s c with press := p }) ?_ ws ⟨_, rfl⟩
  rintro t ⟨p, hp⟩ w
  obtain ⟨q, hq⟩ := coreOf_memPut t w.addr w.data c
  exact ⟨q, by rw [hq, hp]⟩

@[simp] theorem putAll_whey (s : State) (ws : List HeldWrite) (c : Nat) : (coreOf (putAll s ws) c).whey = (coreOf s c).whey := by
  obtain ⟨p, hp⟩ := coreOf_putAll s ws c
  rw [hp]
@[simp] theorem putAll_accMem (s : State) (ws : List HeldWrite) (c : Nat) :
    (coreOf (putAll s ws) c).accMem = (coreOf s c).accMem := by
  obtain ⟨p, hp⟩ := coreOf_putAll s ws c
  rw [hp]
@[simp] theorem putAll_oc (s : State) (ws : List HeldWrite) (c : Nat) : (coreOf (putAll s ws) c).oc = (coreOf s c).oc := by
  obtain ⟨p, hp⟩ := coreOf_putAll s ws c
  rw [hp]

/-- A write that covers no byte outside one 64-byte block. -/
def InBlock (w : HeldWrite) : Prop := ∀ b, w.addr ≤ b → b < w.addr + w.data.length → b / 64 = w.addr / 64

theorem inBlock_of_mem_writeBlocks {a : Nat} {bs : Bytes} {w : HeldWrite} (h : w ∈ writeBlocks a bs) : InBlock w := by
  obtain ⟨i, hi, rfl⟩ := List.mem_map.1 h
  have hlt := of_decide_eq_true (List.mem_filter.1 hi).2
  intro b hlo hhi
  simp only [sliceB, List.length_map, List.length_range] at hlo hhi ⊢
  omega

theorem inBlock_of_mem_groupBlocks {c : Nat} {ws : List WWrite} {w : HeldWrite} (h : w ∈ groupBlocks c ws) : InBlock w := by
  obtain ⟨x, -, hx⟩ := List.mem_flatMap.1 h
  cases x with
  | bytes off bs => exact inBlock_of_mem_writeBlocks hx
  | elems space el vs => simp at hx

/-- A byte outside a write's block reads as before. -/
theorem InBlock.rdByte_memPut {w : HeldWrite} (hw : InBlock w) {b : Nat} (h : b / 64 ≠ w.addr / 64) (s : State) :
    rdByte (memPut s w.addr w.data) b = rdByte s b := by
  apply rdByte_memPut_out
  have := hw b
  omega

/-- What a write leaves at a byte depends on the state by that byte alone. -/
theorem rdByte_memPut_congr {s t : State} {b : Nat} (h : rdByte s b = rdByte t b) (a : Nat) (bs : Bytes) :
    rdByte (memPut s a bs) b = rdByte (memPut t a bs) b := by
  by_cases hb : a ≤ b ∧ b < a + bs.length
  · obtain ⟨i, rfl⟩ := Nat.exists_eq_add_of_le hb.1
    have hi : i < bs.length := by omega
    rw [rdByte_memPut_in s a bs hi, rdByte_memPut_in t a bs hi]
  · rw [rdByte_memPut_out s a bs (by omega), rdByte_memPut_out t a bs (by omega), h]

theorem rdByte_putAll_congr {s t : State} {b : Nat} (h : rdByte s b = rdByte t b) (ws : List HeldWrite) :
    rdByte (putAll s ws) b = rdByte (putAll t ws) b := by
  induction ws generalizing s t with
  | nil => exact h
  | cons w ws ih => exact ih (rdByte_memPut_congr h w.addr w.data)

section Blocks

variable {ws : List HeldWrite} (hws : ∀ w ∈ ws, InBlock w) (land : Nat → Bool) {b : Nat}
include hws

/-- In a block that is not among those that land, the bytes stand. -/
theorem rdByte_putAll_unlanded (hb : land (b / 64) = false) (s : State) :
    rdByte (putAll s (ws.filter fun w => land (w.addr / 64))) b = rdByte s b := by
  induction ws generalizing s with
  | nil => rfl
  | cons w ws ih =>
    obtain ⟨hw, hws⟩ := List.forall_mem_cons.1 hws
    rw [List.filter_cons]
    split
    · next hland =>
      have hne : b / 64 ≠ w.addr / 64 := fun e => by simp [e, hland] at hb
      exact (ih hws _).trans (hw.rdByte_memPut hne s)
    · exact ih hws s

/-- In a block that lands, the bytes are those that all the writes leave. -/
theorem rdByte_putAll_landed (hb : land (b / 64) = true) {s t : State} (hst : rdByte s b = rdByte t b) :
    rdByte (putAll s (ws.filter fun w => land (w.addr / 64))) b = rdByte (putAll t ws) b := by
  induction ws generalizing s t with
  | nil => exact hst
  | cons w ws ih =>
    obtain ⟨hw, hws⟩ := List.forall_mem_cons.1 hws
    rw [List.filter_cons]
    split
    · exact ih hws (rdByte_memPut_congr hst _ _)
    · next hland =>
      have hne : b / 64 ≠ w.addr / 64 := fun e => hland (e ▸ hb)
      exact ih hws (hst.trans (hw.rdByte_memPut hne t).symm)

end Blocks

/-! ### The blocks that have not landed yet -/

/-- The blocks of a core's chains that have not landed. -/
def lateBlocks (s : State) (c : Nat) : List HeldWrite := (coreOf s c).whey.runs.flatMap (·.late)

theorem landLate_eq (s : State) (c : Nat) :
    landLate s c =
      putAll (modWhey s c fun w => { w with runs := w.runs.map fun r => { r with late := [] } }) (lateBlocks s c) := rfl

@[simp] theorem landLate_accMem (s : State) (c : Nat) : (coreOf (landLate s c) c).accMem = (coreOf s c).accMem := by
  simp [landLate_eq, modWhey]
@[simp] theorem landLate_oc (s : State) (c : Nat) : (coreOf (landLate s c) c).oc = (coreOf s c).oc := by
  simp [landLate_eq, modWhey]

/-- Once the late blocks have landed, no chain has one. -/
theorem late_landLate (s : State) (c : Nat) : ∀ r ∈ (coreOf (landLate s c) c).whey.runs, r.late = [] := by
  simp [landLate_eq, modWhey]

theorem rdByte_landLate (s : State) (c b : Nat) : rdByte (landLate s c) b = rdByte (putAll s (lateBlocks s c)) b := by
  have hmod (f : Whey → Whey) : rdByte (modWhey s c f) b = rdByte s b := rfl
  exact rdByte_putAll_congr (hmod _) _

/-- Writes of which some blocks have landed and the others are late land block by block. -/
theorem groupLands_of_late {u t v : State} {c : Nat} {ws : List HeldWrite} (hws : ∀ w ∈ ws, InBlock w) (land : Nat → Bool)
    (hv : ∀ b, rdByte v b = rdByte u b)
    (ht : ∀ b, rdByte t b = rdByte (putAll v (ws.filter fun w => land (w.addr / 64))) b)
    (hlate : lateBlocks t c = ws.filter fun w => !land (w.addr / 64)) : GroupLands u t (putAll v ws) c := by
  have hlanded (b : Nat) (hb : land (b / 64) = true) : rdByte t b = rdByte (putAll v ws) b :=
    (ht b).trans (rdByte_putAll_landed hws land hb rfl)
  have hstands (b : Nat) (hb : land (b / 64) = false) : rdByte t b = rdByte v b :=
    (ht b).trans (rdByte_putAll_unlanded hws land hb v)
  refine ⟨land, fun b => ?_, fun b => ?_⟩
  · cases hb : land (b / 64) with
    | true => exact hlanded b hb
    | false => exact (hstands b hb).trans (hv b)
  · rw [rdByte_landLate, hlate]
    cases hb : land (b / 64) with
    | true => exact (rdByte_putAll_unlanded hws (fun n => !land n) (by simp [hb]) t).trans (hlanded b hb)
    | false => exact rdByte_putAll_landed hws (fun n => !land n) (by simp [hb]) (hstands b hb)

/-! ### Writes to accumulator memory and the operand cache -/

/-- A group's writes to accumulator memory and the operand cache, one after another. -/
def putOnchip (s : State) (c : Nat) (ws : List WWrite) : State := ws.foldl (fun s w => wheyPut s c w) s

@[simp] theorem coreOf_drawn (s : State) (c : Nat) : coreOf (drawn s) c = coreOf s c := rfl

theorem wheyPut_drawn (s : State) (c : Nat) (w : WWrite) : wheyPut (drawn s) c w = drawn (wheyPut s c w) := by
  unfold wheyPut
  split
  · rfl
  · rfl
  · rfl

theorem putOnchip_drawn (s : State) (c : Nat) (ws : List WWrite) : putOnchip (drawn s) c ws = drawn (putOnchip s c ws) :=
  List.foldl_hom drawn fun s w => wheyPut_drawn s c w

/-- They leave the memory and the chains as they are. -/
theorem putOnchip_keeps (s : State) (c : Nat) (ws : List WWrite) :
    (putOnchip s c ws).mem = s.mem ∧ (coreOf (putOnchip s c ws) c).whey = (coreOf s c).whey := by
  refine foldl_keeps (P := fun t => t.mem = s.mem ∧ (coreOf t c).whey = (coreOf s c).whey) ?_ ws ⟨rfl, rfl⟩
  rintro t ⟨hmem, hwhey⟩ w
  unfold wheyPut
  split
  · exact ⟨hmem, hwhey⟩
  · exact ⟨hmem, by simp [hwhey]⟩
  · exact ⟨hmem, by simp [hwhey]⟩

/-! ### A group computed and written (R225, R307) -/

/-- What the next group to be written computes. -/
def groupOut (u : State) (c : Nat) (r : WheyRun) : WGroup :=
  runGroup u c r.e.chain r.written r.part fun d l => drawOf (coreOf u c).whey r r.written d l

/-- Its writes to scratchpad, block by block. -/
def outBlocks (u : State) (c : Nat) (r : WheyRun) : List HeldWrite := groupBlocks c (groupOut u c r).writes

/-- The blocks, by number, that land with the command itself. -/
def landsNow (u : State) (c : Nat) (r : WheyRun) (b : Nat) : Bool :=
  (landNow u ((outBlocks u c r).map fun w => w.addr / 64).eraseDups).1.contains b

/-- Whether what the next group reads meets poison. -/
def groupPoisoned (u : State) (c : Nat) (r : WheyRun) : Bool :=
  let ch := r.e.chain
  let j := 64 * (r.written % ceilDiv ch.cols 64)
  groupBad u c ch (r.written / ceilDiv ch.cols 64) j (min 64 (ch.cols - j))

/-- The chain once the group is written. -/
def writtenRun (u : State) (c : Nat) (r : WheyRun) : WheyRun :=
  let g := groupOut u c r
  { r with
    late := (outBlocks u c r).filter fun w => !landsNow u c r (w.addr / 64)
    written := r.written + 1, part := g.part, mism := false, events := r.events + g.events.length
    first := match r.first with | some e => some e | none => g.events.head? }

/-- The group of a live chain that reads no poison is written on chip, its first blocks land, and the chain goes on. -/
theorem writeGroup_eq {u : State} {c i : Nat} {r : WheyRun} (hlive : r.dead = none) (hclean : groupPoisoned u c r = false) :
    writeGroup u c i r =
      modCore (putAll (putOnchip (drawn u) c (groupOut u c r).writes)
        ((outBlocks u c r).filter fun w => landsNow u c r (w.addr / 64))) c fun k =>
          let k := k.wheyFlag (flagBits (groupOut u c r).flags)
          { k with whey := setChain k.whey i (writtenRun u c r) } := by
  unfold groupPoisoned at hclean
  dsimp only at hclean
  unfold writeGroup
  dsimp only
  rw [if_neg (by simp [hlive]), if_neg (by simp [hclean])]
  rfl

/-- The group of `r`, the chain at place i, is written between two states: what R225 and R307 say of it. -/
def GroupWritten (u t : State) (c i : Nat) (r : WheyRun) : Prop :=
  let onchip := putOnchip u c (groupOut u c r).writes
  ∃ r', GroupLands u t (putAll onchip (outBlocks u c r)) c ∧
    (coreOf t c).accMem = (coreOf onchip c).accMem ∧ (coreOf t c).oc = (coreOf onchip c).oc ∧
    (coreOf t c).whey.runs[i]? = some r' ∧ r'.written = r.written + 1 ∧ r'.mism = false ∧ r'.dead = none

theorem writeGroup_runs {u : State} {c i : Nat} {r : WheyRun} (hlive : r.dead = none) (hclean : groupPoisoned u c r = false) :
    (coreOf (writeGroup u c i r) c).whey.runs = lset (coreOf u c).whey.runs i (writtenRun u c r) := by
  obtain ⟨-, hwhey⟩ := putOnchip_keeps u c (groupOut u c r).writes
  simp [writeGroup_eq hlive hclean, putOnchip_drawn, Core.wheyFlag, setChain, hwhey]

theorem writeGroup_lands {u : State} {c i : Nat} {r : WheyRun} (hr : (coreOf u c).whey.runs[i]? = some r)
    (hlate : ∀ x ∈ (coreOf u c).whey.runs, x.late = []) (hlive : r.dead = none) (hclean : groupPoisoned u c r = false) :
    GroupLands u (writeGroup u c i r) (putAll (putOnchip u c (groupOut u c r).writes) (outBlocks u c r)) c := by
  obtain ⟨hmem, -⟩ := putOnchip_keeps u c (groupOut u c r).writes
  refine groupLands_of_late (fun w => inBlock_of_mem_groupBlocks) (landsNow u c r) (fun b => ?_) (fun b => ?_) ?_
  · simp only [rdByte, hmem]
  · rw [writeGroup_eq hlive hclean, putOnchip_drawn]
    have hdrawn (v : State) : rdByte (drawn v) b = rdByte v b := rfl
    exact rdByte_putAll_congr (hdrawn _) _
  · rw [lateBlocks, writeGroup_runs hlive hclean, flatMap_lset hlate hr]
    rfl

theorem groupWritten_writeGroup {u : State} {c i : Nat} {r : WheyRun} (hr : (coreOf u c).whey.runs[i]? = some r)
    (hlate : ∀ x ∈ (coreOf u c).whey.runs, x.late = []) (hlive : r.dead = none) (hclean : groupPoisoned u c r = false) :
    GroupWritten u (writeGroup u c i r) c i r := by
  refine ⟨writtenRun u c r, writeGroup_lands hr hlate hlive hclean, ?_, ?_, ?_, rfl, rfl, hlive⟩
  · simp [writeGroup_eq hlive hclean, putOnchip_drawn, Core.wheyFlag]
  · simp [writeGroup_eq hlive hclean, putOnchip_drawn, Core.wheyFlag]
  · rw [writeGroup_runs hlive hclean, getElem?_lset_same hr]

/-! ### Two runs of a group that agree or differ (R241 to R243) -/

theorem onWhey_clocked {s : State} {c : Nat} (h : pllDown s (4 + c / 64) = false) (run : State → Res) :
    onWhey s c run = run (landLate s c) := by
  simp [onWhey, h]

/-- The chain at place i replaced, bits of WHEY_STAT set and an ATTN event of a class raised: how a mismatch leaves the
module (R242, R243). -/
def mismatchMet (u : State) (c i flags cls : Nat) (r : WheyRun) : State :=
  let t := modCore u c fun k =>
    let k := k.wheyFlag flags
    { k with whey := setChain k.whey i r }
  attn t { cls := cls, source := vatSource c, d0 := BitVec.ofNat 64 (c + 256 * physOf t c) }

@[simp] theorem coreOf_attn (s : State) (f : FaultInfo) (c : Nat) : coreOf (attn s f) c = coreOf s c := rfl

/-- A mismatch writes nothing: the chain is replaced, the bits are set, and the memories stand. -/
theorem mismatchMet_keeps {s : State} {c i : Nat} {r : WheyRun} (hr : (coreOf (landLate s c) c).whey.runs[i]? = some r)
    (flags cls : Nat) (r' : WheyRun) :
    let t := mismatchMet (landLate s c) c i flags cls r'
    (coreOf t c).whey.runs[i]? = some r' ∧
      (coreOf t c).whey.stat = (coreOf (landLate s c) c).whey.stat ||| BitVec.ofNat 8 flags ∧
      t.mem = (landLate s c).mem ∧ (coreOf t c).accMem = (coreOf s c).accMem ∧ (coreOf t c).oc = (coreOf s c).oc := by
  refine ⟨?_, ?_, rfl, ?_, ?_⟩
  · simp [mismatchMet, Core.wheyFlag, setChain, getElem?_lset_same hr]
  · simp [mismatchMet, Core.wheyFlag, setChain]
  · simp [mismatchMet, Core.wheyFlag]
  · simp [mismatchMet, Core.wheyFlag]

section Commands

variable {s : State} {c i : Nat} {r : WheyRun} (hc : c < 256) (hpll : pllDown s (4 + c / 64) = false)
  (hi : oldestChain (coreOf (landLate s c) c).whey = i) (hr : (coreOf (landLate s c) c).whey.runs[i]? = some r)
include hc hpll hi hr

/-- Runs that agree, or a chain without DUAL: the oldest entered group is written. -/
theorem chainGroupWrite_writes (hmism : r.mism = false) (hleft : r.written < r.entered) {differ : Bool}
    (hagree : (differ && r.e.chain.dual) = false) :
    Runs (.chainGroupWrite c differ) s (writeGroup (landLate s c) c i r) := by
  have hready : ¬ r.entered ≤ r.written := Nat.not_le.2 hleft
  show execChainGroupWrite c differ s = _
  rw [execChainGroupWrite, onCore_lt hc, onWhey_clocked hpll]
  simp [hi, hr, hmism, hready, hagree]

/-- Runs of a DUAL group that differ: it waits for its re-run. -/
theorem chainGroupWrite_mismatch (hlive : r.dead = none) (hmism : r.mism = false) (hleft : r.written < r.entered)
    (hdual : r.e.chain.dual = true) :
    Runs (.chainGroupWrite c true) s (mismatchMet (landLate s c) c i 0x20 6 { r with mism := true }) := by
  have hready : ¬ r.entered ≤ r.written := Nat.not_le.2 hleft
  show execChainGroupWrite c true s = _
  rw [execChainGroupWrite, onCore_lt hc, onWhey_clocked hpll]
  simp [hi, hr, hmism, hready, hdual, hlive, mismatchMet]

/-- The re-run's two runs agree: the group is written. -/
theorem wheyGroupRerun_writes (hmism : r.mism = true) :
    Runs (.wheyGroupRerun c false) s (writeGroup (landLate s c) c i r) := by
  show execWheyGroupRerun c false s = _
  rw [execWheyGroupRerun, onCore_lt hc, onWhey_clocked hpll]
  simp [hi, hr, hmism]

/-- They differ again: the chain writes nothing more. -/
theorem wheyGroupRerun_mismatch (hmism : r.mism = true) :
    Runs (.wheyGroupRerun c true) s (mismatchMet (landLate s c) c i 0xE0 7
      { r with mism := false, written := r.written + 1, dead := some .wheyFault }) := by
  show execWheyGroupRerun c true s = _
  rw [execWheyGroupRerun, onCore_lt hc, onWhey_clocked hpll]
  simp [hi, hr, hmism, mismatchMet]

end Commands

theorem chainGroupsWritten : ChainGroupsWritten := by
  intro s c i r hc hpll u hi hr hlive ch j out onchip full written kept hclean
  have hwritten : GroupWritten u (writeGroup u c i r) c i r :=
    groupWritten_writeGroup hr (late_landLate s c) hlive hclean
  obtain ⟨r', hr'⟩ := hwritten
  refine ⟨fun hmism hleft differ hagree => ?_, fun hmism hleft hdual => ?_, fun hmism => ?_, fun hmism => ?_⟩
  · exact ⟨_, r', chainGroupWrite_writes hc hpll hi hr hmism hleft hagree, hr'⟩
  · obtain ⟨hruns, hstat, hkept⟩ := mismatchMet_keeps hr 0x20 6 { r with mism := true }
    exact ⟨_, chainGroupWrite_mismatch hc hpll hi hr hlive hmism hleft hdual, hruns, by rw [hstat]; simp, hkept⟩
  · exact ⟨_, r', wheyGroupRerun_writes hc hpll hi hr hmism, hr'⟩
  · obtain ⟨hruns, hstat, hkept⟩ := mismatchMet_keeps hr 0xE0 7
      { r with mism := false, written := r.written + 1, dead := some .wheyFault }
    exact ⟨_, _, wheyGroupRerun_mismatch hc hpll hi hr hmism, hruns, rfl, by rw [hstat]; simp, by rw [hstat]; simp,
      by rw [hstat]; simp, hkept⟩

/-- Settles O15: the group that enters is the next of the chain that began last, which is the head of the queue once the
chain before it has entered whole; and a written group lands block by block, because each of its writes to scratchpad is
cut so that it lies in one 64-byte block. -/
theorem chainGroups : Obligations.ChainGroups := ⟨chainGroupsEnter, chainGroupsWritten⟩

end Sys2Proof.Proofs.Chains
end
